-- ==== Sys2Proof/Word.lean ====
section
/-! DEFINITION. The widths of the block (00_scope.md R10: IN_W, HW_W, WORD_W, LEN_W, CUR_W, ADDR_W) as types. -/

namespace Sys2Proof

/-- One source sample, `IN_W` = 8 bits (R10). -/
abbrev Byte := BitVec 8

/-- One output half-word (one audio slot), `HW_W` = 16 bits (R10). -/
abbrev HalfWord := BitVec 16

/-- One transfer-buffer word, `WORD_W` = 32 bits (R10). -/
abbrev Word := BitVec 32

/-- A source length or a cursor, `LEN_W` = `CUR_W` = 16 bits (R10). -/
abbrev Len := BitVec 16

/-- A source-memory address. `ADDR_W` is a parameter of 16 to 64 bits (R10), so an address is held in the 64 bits
of the widest configuration; the configured `ADDR_W` says how many of them exist. -/
abbrev Addr := BitVec 64

/-- A command descriptor (30_encoding.md R64). It is 64 bits for `ADDR_W` up to 32 and "grows at the top" for a
wider address, up to 32 + 64 bits; the bits that a configuration does not have are 0. -/
abbrev Descriptor := BitVec 96

/-- The operand bundle `FRQ` of a fill request, 17 bits (30_encoding.md R69). -/
abbrev FillBundle := BitVec 17

end Sys2Proof
end

