-- ==== Sys2Proof/Config.lean ====
section
/-! DEFINITION. The parameters of the block (00_scope.md R10, 10_state.md R42) and the free values that stand for what
the spec leaves open. A free value is an opaque constant: no proof can see which value it has. -/

namespace Sys2Proof

/-- A range of source addresses, `base .. base + size - 1`. -/
structure Region where
  base : Nat
  size : Nat
  deriving DecidableEq, Repr

/-- `CHANNEL_LAYOUT` (R10, 42_transmitter.md R126): the three readings of 90_conflicts.md C6. No rule reads it. -/
inductive ChannelLayout where
  | duplicated
  | leftOnly
  | stereoSlots
  deriving DecidableEq, Repr, Inhabited

/-- Where a platform that wraps the ports in bus registers puts them (20_memory.md R54, 92_eei_decisions.md D28): the bus
addresses of the command port and of the `STATUS` word. -/
structure PortMap where
  command : Nat
  status : Nat
  deriving DecidableEq, Repr

/-- The configuration of one instance of the block (R10, R42). Fixed for the machine: no step changes it. -/
structure Config where
  /-- `BUF_WORDS`: words in the transfer buffer (R10). -/
  bufWords : Nat
  /-- `ADDR_W`: width of a source-memory address (R10). -/
  addrW : Nat
  /-- The source addresses whose reads have side effects (20_memory.md R45), which the platform fixes. -/
  sideEffects : List Region
  /-- `CHANNEL_LAYOUT` (R10, 42_transmitter.md R126), OPEN: `none` leaves it open. No rule reads it. -/
  channelLayout : Option ChannelLayout
  /-- `FS_HZ`: nominal output sample rate, informational (R10). No rule reads it. -/
  fsHz : Nat
  /-- `init_ok` (R10), the environment's draw per INIT: the first outcomes, as far as they are given; the ones after
  them are free (log 7). -/
  initOk : List Bool
  /-- `PORT_MAP` (20_memory.md R54), OPEN and the platform's: `none` where the ports are the wires of R63 and R33, or
  the map is left open. No rule reads it. -/
  portMap : Option PortMap
  deriving DecidableEq, Repr

/-- `B = BUF_WORDS / 2`: words in one half-buffer (R10, 10_state.md R35). -/
def Config.blockWords (c : Config) : Nat := c.bufWords / 2

/-- The legal range of the parameters (R10): `BUF_WORDS` even, 2 to 65534 (92_eei_decisions.md, open parameters);
`ADDR_W` 16 to 64. -/
def Config.legal (c : Config) : Bool :=
  c.bufWords % 2 == 0 && decide (2 ≤ c.bufWords) && decide (c.bufWords ≤ 65534) &&
    decide (16 ≤ c.addrW) && decide (c.addrW ≤ 64)

/-- The instance the spec describes: `BUF_WORDS` = 1000, `ADDR_W` = 32, `FS_HZ` = 15873, `CHANNEL_LAYOUT` and
`PORT_MAP` open, no outcome of `init_ok` given (R10). DESIGN CHOICE (log 1): no address of it has a read side effect. -/
def Config.standard : Config :=
  { bufWords := 1000, addrW := 32, sideEffects := [], channelLayout := none, fsHz := 15873, initOk := [],
    portMap := none }

/-- Who takes the next turn: one of the three agents (60_exceptions.md R150), or the reset input `rst`
(70_reset_and_hazards.md R157). -/
inductive Turn where
  | host
  | fillEngine
  | transmitter
  | reset
  deriving DecidableEq, Repr, Inhabited

/-- The free schedule (20_memory.md R52): the turn taken at the given turn number where none is given. -/
opaque Config.schedule : Nat → Turn

/-- The free draw `init_ok` of the n-th INIT (40_lifecycle_commands.md R77), where the configuration gives none. -/
opaque Config.freeInitOk : Nat → Bool

/-- The unspecified contents of a `TXBUF` word that no FILL has written since the n-th reset (10_state.md R41):
reset number, word index. -/
opaque Config.freeTxWord : Nat → Nat → Word

/-- The contents of source memory, a parameter of the model (10_state.md R36), at an address `State` does not list. -/
opaque Config.freeSourceByte : Nat → Byte

/-- The physical level of the amplifier pin between the n-th reset and INIT (70_reset_and_hazards.md R157). -/
opaque Config.freeAmpPin : Nat → Bool

/-- The electrical polarity of the amplifier pin, which the spec leaves open (40_lifecycle_commands.md R84,
91_not_in_source.md N23): true is active high. -/
opaque Config.ampActiveHigh : Bool

/-- The unspecified polarity of `FS` (42_transmitter.md R125). -/
opaque Config.fsPolarity : Bool

/-- The layout where the configuration leaves `CHANNEL_LAYOUT` open (42_transmitter.md R126). -/
opaque Config.freeChannelLayout : ChannelLayout

/-- The layout of an instance: the one configured, else a free one (log 20). -/
def Config.layout (c : Config) : ChannelLayout := c.channelLayout.getD Config.freeChannelLayout

/-- `k` of 70_reset_and_hazards.md R172: half-words taken from `TXBUF` per audio frame. DEDUCED (log 20): the
duplicated layout is read as duplication by the transmitter, the case R172 gives a figure for. Informational. -/
def ChannelLayout.halfWordsPerFrame : ChannelLayout → Nat
  | .duplicated => 1
  | .leftOnly => 1
  | .stereoSlots => 2

/-- The block period of R172 in microseconds, `2 * B / (k * FS_HZ)` seconds rounded down. Informational: the model
has no time. -/
def Config.blockPeriodMicros (c : Config) : Nat :=
  2 * c.blockWords * 1000000 / (c.layout.halfWordsPerFrame * c.fsHz)

end Sys2Proof
end

