-- ==== Sys2Proof/Syntax.lean ====
section
/-! DEFINITION. The six operations of the block (30_encoding.md R62), one constructor per row of
spec/opcode_table.json. -/

namespace Sys2Proof

/-- The operations (R62). Five are host commands; `fill` is the internal fill event. The transmitter's EMIT and
PLAY's completion are steps that nobody issues and have no encoding. -/
inductive Instr where
  /-- `init()` (40_lifecycle_commands.md R77). -/
  | init
  /-- `enable()` (R78). -/
  | enable
  /-- `disable()` (R79). -/
  | disable
  /-- `play(data, length)` (R80): `addr` is the source pointer `ADDR`, `len` the byte count `LEN`. -/
  | play (addr : Addr) (len : Len)
  /-- `stop()` (R83). -/
  | stop
  /-- `fill(half, n)` (41_fill_engine.md R90): the half of `TXBUF` to write and the block capacity in words. -/
  | fill (half : BitVec 1) (n : BitVec 16)
  deriving DecidableEq, Repr

end Sys2Proof
end

