-- ==== Sys2Proof/WellFormed.lean ====
section
/-! DEFINITION. When an operation can be spelled on the ports of a configuration. -/

namespace Sys2Proof

/-- An operation is well formed for an address width when its operands fit their fields: PLAY's pointer has `ADDR_W`
bits (30_encoding.md R64: "the unused upper bits of `ADDR` must be 0"). The other operands have the width of their
field, and every 17-bit value is a well-formed `FRQ` (opcode_table.json, row FILL). -/
def Instr.wellFormed (addrW : Nat) : Instr → Bool
  | .init => true
  | .enable => true
  | .disable => true
  | .play addr _ => decide (addr.toNat < 2 ^ addrW)
  | .stop => true
  | .fill _ _ => true

end Sys2Proof
end

