-- ==== Sys2Proof/Decode.lean ====
section
/-! DEFINITION. The command descriptor and the fill-request bundle: the decoder (30_encoding.md R64 to R69), total and
rejecting by name, then the encoder written from the same tables. -/

namespace Sys2Proof

/-- What a decoder answers (R68): an operation, or `reserved`. -/
inductive Decoded where
  | instr (i : Instr)
  /-- The descriptor matches no row of R66 (R67). -/
  | reservedEncoding
  deriving DecidableEq, Repr

/-- `OPC`, bits [3:0] (R64). -/
def descOpc (d : Descriptor) : BitVec 4 := d.extractLsb' 0 4

/-- `RSV`, bits [15:4] (R64). -/
def descRsv (d : Descriptor) : BitVec 12 := d.extractLsb' 4 12

/-- `LEN`, bits [31:16] (R64). -/
def descLen (d : Descriptor) : Len := d.extractLsb' 16 16

/-- `ADDR`, from bit 32 up (R64). -/
def descAddr (d : Descriptor) : Addr := d.extractLsb' 32 64

/-- A command without operands: both operand fields must be 0 (R64, R66). -/
def decodeBare (i : Instr) (d : Descriptor) : Decoded :=
  if descLen d = 0 ∧ descAddr d = 0 then .instr i else .reservedEncoding

/-- PLAY: both operand fields are used as they stand (R65); the bits above `ADDR_W` must be 0 (R64). -/
def decodePlay (addrW : Nat) (d : Descriptor) : Decoded :=
  if (descAddr d).toNat < 2 ^ addrW then .instr (.play (descAddr d) (descLen d)) else .reservedEncoding

/-- The command decoder (R66 to R68), a function of the descriptor and the configured address width alone. -/
def decodeCmd (addrW : Nat) (d : Descriptor) : Decoded :=
  if descRsv d = 0 then
    match (descOpc d).toNat with
    | 1 => decodeBare .init d
    | 2 => decodeBare .enable d
    | 3 => decodeBare .disable d
    | 4 => decodePlay addrW d
    | 5 => decodeBare .stop d
    | _ => .reservedEncoding
  else .reservedEncoding

/-- The fill-request bundle `FRQ` (R69): `n` in [15:0], `half` in [16]. Every value is well formed. -/
def decodeFrq (f : FillBundle) : Instr := .fill (f.extractLsb' 16 1) (f.extractLsb' 0 16)

/-- The instruction the decoder reads from a row's bits. The two formats arrive on different ports, so no bit tells
them apart: `nbits` does (log 21). A row of up to 32 bits is format EVT (17 bits of `FRQ`), a wider one format CMD
with the standard `ADDR_W` = 32. -/
def decodeTableWord (nbits w : Nat) : Option Instr :=
  if nbits ≤ 32 then
    if w < 2 ^ 17 then some (decodeFrq (BitVec.ofNat 17 w)) else none
  else if w < 2 ^ 96 then
    match decodeCmd Config.standard.addrW (BitVec.ofNat 96 w) with
    | .instr i => some i
    | .reservedEncoding => none
  else none

/-- The words of an operation: a command descriptor, or a fill-request bundle. -/
inductive Encoded where
  | cmd (d : Descriptor)
  | evt (f : FillBundle)
  deriving DecidableEq, Repr

/-- A descriptor from its fields (R64): ADDR, LEN, RSV = 0, OPC. -/
def encodeDescriptor (opc : BitVec 4) (len : Len) (addr : Addr) : Descriptor :=
  addr ++ len ++ (0 : BitVec 12) ++ opc

/-- A fill-request bundle from its fields (R69). -/
def encodeFrq (half : BitVec 1) (n : BitVec 16) : FillBundle := half ++ n

/-- The encoder (R66, R69, R72). -/
def encode : Instr → Encoded
  | .init => .cmd (encodeDescriptor 1 0 0)
  | .enable => .cmd (encodeDescriptor 2 0 0)
  | .disable => .cmd (encodeDescriptor 3 0 0)
  | .play addr len => .cmd (encodeDescriptor 4 len addr)
  | .stop => .cmd (encodeDescriptor 5 0 0)
  | .fill half n => .evt (encodeFrq half n)

/-- Reading an encoded operation back on the port it belongs to. -/
def decode (addrW : Nat) : Encoded → Decoded
  | .cmd d => decodeCmd addrW d
  | .evt f => .instr (decodeFrq f)

/-- A row of the opcode map of R66: the mnemonic, and `match` and `mask` over the 64 bits of the descriptor. -/
structure OpcodeRow where
  mnemonic : String
  pattern : BitVec 64
  mask : BitVec 64
  deriving DecidableEq, Repr

/-- The opcode map of R66, row by row. -/
def opcodeMap : List OpcodeRow :=
  [ { mnemonic := "INIT", pattern := 0x0000000000000001, mask := 0xFFFFFFFFFFFFFFFF },
    { mnemonic := "ENABLE", pattern := 0x0000000000000002, mask := 0xFFFFFFFFFFFFFFFF },
    { mnemonic := "DISABLE", pattern := 0x0000000000000003, mask := 0xFFFFFFFFFFFFFFFF },
    { mnemonic := "PLAY", pattern := 0x0000000000000004, mask := 0x000000000000FFFF },
    { mnemonic := "STOP", pattern := 0x0000000000000005, mask := 0xFFFFFFFFFFFFFFFF } ]

/-- A 64-bit descriptor spells a row's command when `d & mask = match` (R66). -/
def OpcodeRow.spells (r : OpcodeRow) (d : BitVec 64) : Bool := d &&& r.mask == r.pattern

/-- The name of an operation (R62). -/
def Instr.mnemonic : Instr → String
  | .init => "INIT"
  | .enable => "ENABLE"
  | .disable => "DISABLE"
  | .play _ _ => "PLAY"
  | .stop => "STOP"
  | .fill _ _ => "FILL"

end Sys2Proof
end

