-- ==== Sys2Proof/Machine/State.lean ====
section
/-! DEFINITION. The state of the block as plain data (10_state.md R15, R42), the reasons a step can stop, and the state
after reset (R41). -/

namespace Sys2Proof.Machine

/-- `STATE`, the playback state (10_state.md R22). -/
inductive PlaybackState where
  | idle
  | playing
  | finishing
  | finished
  deriving DecidableEq, Repr

/-- `HOSTPH`, the host phase (R28). -/
inductive HostPhase where
  | ready
  | wait
  deriving DecidableEq, Repr

/-- `TPH`, the transmitter phase (R29). Encoding 3 is never taken. -/
inductive TxPhase where
  | stopped
  | priming
  | streaming
  deriving DecidableEq, Repr

/-- What the host presents at the command port (30_encoding.md R63): a descriptor, and the bytes the caller stores in
its own memory before presenting it (60_exceptions.md R155, 70_reset_and_hazards.md R161; log 5). -/
structure HostCall where
  stores : List Host.Cell
  desc : Descriptor
  deriving DecidableEq, Repr

/-- The state. The first sixteen fields are the spec's (R15: "The complete state of the block"); the rest are the
model's own: the parameters of the step relation (R42) and the counters its free values are applied to. -/
structure State where
  /-- `SRC_PTR` (R16): `ADDR_W` bits of these 64. -/
  srcPtr : Addr
  /-- `SRC_LEN` (R17). -/
  srcLen : Len
  /-- `CURSOR` (R18, R20). -/
  cursor : Len
  /-- `STATE` (R22). -/
  state : PlaybackState
  /-- `TXBUF` (R34, R35): word index and word. A word not listed has not been written since reset (log 3). -/
  txbuf : List (Nat × Word)
  /-- `AMP_EN` (R25). -/
  ampEn : Bool
  /-- `INITED` (R26). -/
  inited : Bool
  /-- `HALTED` (R27). -/
  halted : Bool
  /-- `HOSTPH` (R28). -/
  hostPh : HostPhase
  /-- `TPH` (R29). -/
  tph : TxPhase
  /-- `FILL_PEND` (R30). -/
  fillPend : Bool
  /-- `FILL_HALF` (R31). -/
  fillHalf : BitVec 1
  /-- `TXHALF` (R21). -/
  txHalf : BitVec 1
  /-- `TXIDX` (R21). -/
  txIdx : BitVec 15
  /-- `HSEL` (R21). -/
  hsel : BitVec 1
  /-- `OUT`, every half-word emitted since reset, oldest first (R38). -/
  out : List HalfWord
  /-- MODEL: the operand `n` on the fill-request bundle `FRQ` (30_encoding.md R69; log 8). -/
  frqN : BitVec 16
  /-- MODEL: the configuration (00_scope.md R10, R42; log 1). No step changes it. -/
  cfg : Config
  /-- MODEL: source memory, the caller's (R36, R42; log 4). -/
  srcMem : List Host.Cell
  /-- MODEL: what the host will present at the command port, in order (R63; log 9). -/
  calls : List HostCall
  /-- MODEL: the turns that come next, as far as they are given (20_memory.md R52; log 6). -/
  sched : List Turn
  /-- MODEL: how many turns have been taken; the free schedule is applied to it (log 6). -/
  turns : Nat
  /-- MODEL: how many INITs have drawn `init_ok` (40_lifecycle_commands.md R77; log 7). -/
  initDraws : Nat
  /-- MODEL: how many resets there have been; the free contents of `TXBUF` are applied to it (log 3). -/
  epoch : Nat
  deriving DecidableEq, Repr

/-- Why a step faults. -/
inductive Fault where
  /-- `UNDERRUN` (60_exceptions.md R135): raised by EMIT when a half begins while a fill request is pending
  (42_transmitter.md R119). Safe: the hardware goes on with an output nobody can state, the model claims nothing. -/
  | underrun
  /-- Raised by EMIT when `TXIDX` is not below `B`, so that the position names no word of `TXBUF` (10_state.md R21,
  R34). Safe: no reachable state meets it (log 14). -/
  | noSuchWord
  deriving DecidableEq, Repr

/-- Why a step is refused (60_exceptions.md R132, R136): the spec gives what follows no meaning. -/
inductive Refusal where
  /-- Raised by an arm of `exec` that has no meaning yet. Safe. No arm of this model uses it. -/
  | notModelled (mnemonic : String)
  /-- `RESERVED_ENCODING`: command acceptance, a descriptor that matches no row of R66 (30_encoding.md R67). Safe. -/
  | reservedEncoding
  /-- `NOT_INITIALISED`: a command other than INIT with `INITED` = 0 (40_lifecycle_commands.md R76). Safe. -/
  | notInitialised
  /-- `ALREADY_INITIALISED`: INIT with `INITED` = 1 (R76). Safe. -/
  | alreadyInitialised
  /-- `VIEW_WRAPS`: PLAY with `LEN` nonzero and `ADDR + LEN > 2^ADDR_W` (R76, 20_memory.md R47). Safe. -/
  | viewWraps
  /-- `SOURCE_HAS_SIDE_EFFECTS`: PLAY whose view covers memory whose reads have side effects (20_memory.md R45).
  Safe. -/
  | sourceHasSideEffects
  /-- `FILL_TOO_LARGE`: FILL with `n > B` (41_fill_engine.md R90). Safe. -/
  | fillTooLarge
  deriving DecidableEq, Repr

/-- The block right after reset (10_state.md R41). `SRC_PTR` is unspecified there: 0 is a DESIGN CHOICE (log 2).
`TXBUF` lists nothing, so every word of it is a free value (log 3). -/
def State.reset : State where
  srcPtr := 0
  srcLen := 0
  cursor := 0
  state := .idle
  txbuf := []
  ampEn := false
  inited := false
  halted := false
  hostPh := .ready
  tph := .stopped
  fillPend := false
  fillHalf := 0
  txHalf := 0
  txIdx := 0
  hsel := 0
  out := []
  frqN := 500
  cfg := Config.standard
  srcMem := []
  calls := []
  sched := []
  turns := 0
  initDraws := 0
  epoch := 0

end Sys2Proof.Machine
end

