-- ==== Sys2Proof/Machine/Ops.lean ====
section
/-! DEFINITION. The named operations over memory and registers: the two memories, the micro-operations
(30_encoding.md R73), taking the one exception and leaving the fill interrupt, and the bookkeeping of a turn. -/

namespace Sys2Proof.Machine

/-! ### Memory as a list of cells -/

/-- The value listed at an address, if one is. -/
def cellRead {α : Type} : List (Nat × α) → Nat → Option α
  | [], _ => none
  | (k, v) :: rest, a => if k = a then some v else cellRead rest a

/-- Write one cell, keeping the addresses strictly rising. -/
def cellWrite {α : Type} : List (Nat × α) → Nat → α → List (Nat × α)
  | [], a, v => [(a, v)]
  | (k, w) :: rest, a, v =>
    if a < k then (a, v) :: (k, w) :: rest
    else if a = k then (a, v) :: rest
    else (k, w) :: cellWrite rest a v

/-- The canonical form: addresses strictly rising, every one below `bound`. An unlisted cell has no stored value, so
no listed one can equal what an unlisted one reads as (logs 3 and 4). -/
abbrev CellsCanonical {α : Type} (bound : Nat) (m : List (Nat × α)) : Prop :=
  m.Pairwise (fun x y => x.1 < y.1) ∧ ∀ c ∈ m, c.1 < bound

/-- Source memory is in canonical form: byte addresses below `2^ADDR_W` (10_state.md R36). -/
abbrev Memory.wf (c : Config) (m : List Host.Cell) : Prop := CellsCanonical (2 ^ c.addrW) m

/-- The transfer buffer is in canonical form: word indices below `BUF_WORDS` (R34). -/
abbrev TxBuf.wf (c : Config) (m : List (Nat × Word)) : Prop := CellsCanonical c.bufWords m

/-- `B`, the words of one half (R35). -/
def State.blockWords (s : State) : Nat := s.cfg.blockWords

/-- An address formed in `ADDR_W` bits (41_fill_engine.md R102). -/
def addrBits (c : Config) (a : Nat) : Nat := a % 2 ^ c.addrW

/-- `MemRead(addr, 1)` (20_memory.md R45): a byte of source memory, without side effect. An address `State` does not
list holds whatever the parameter of R36 says it holds. -/
def memRead (s : State) (a : Nat) : Byte :=
  (cellRead s.srcMem (addrBits s.cfg a)).getD (Config.freeSourceByte (addrBits s.cfg a))

/-- The bytes the caller stores in its own memory (70_reset_and_hazards.md R161), in order. -/
def storeCells (c : Config) (m : List Host.Cell) : List Host.Cell → List Host.Cell
  | [] => m
  | (a, b) :: rest => storeCells c (cellWrite m (addrBits c a) b) rest

/-- `TXBUF[i]` (00_scope.md R12). A word no FILL has written since reset is unspecified (10_state.md R41): a free
value, the same at every read. -/
def txRead (s : State) (i : Nat) : Word :=
  (cellRead s.txbuf i).getD (Config.freeTxWord s.epoch i)

/-- `TXBUF[i] <- v` (R12): a whole word (41_fill_engine.md R104). -/
def txWrite (s : State) (i : Nat) (v : Word) : State := { s with txbuf := cellWrite s.txbuf i v }

/-! ### Micro-operations of the amplifier line (40_lifecycle_commands.md R84) -/

/-- `AMP.CFG`: configures the output and puts the latch at 0. -/
def ampCfg (s : State) : State := { s with ampEn := false }

/-- `AMP.SET`. -/
def ampSet (s : State) : State := { s with ampEn := true }

/-- `AMP.CLEAR`. -/
def ampClear (s : State) : State := { s with ampEn := false }

/-! ### Micro-operations of the transmitter (42_transmitter.md R110 to R112) -/

/-- `T.INIT` (R110). -/
def tInit (s : State) : State := { s with tph := .stopped, fillPend := false }

/-- Raise a fill request for a half, with `n = B` (R115, 30_encoding.md R69). -/
def raiseRequest (half : BitVec 1) (s : State) : State :=
  { s with fillPend := true, fillHalf := half, frqN := BitVec.ofNat 16 s.blockWords }

/-- `T.START` (R111): position (0, 0, 0), the prefill request for half 0, priming. -/
def tStart (s : State) : State :=
  { raiseRequest 0 { s with txHalf := 0, txIdx := 0, hsel := 0 } with tph := .priming }

/-- `T.STOP` (R112): the transfer halts and a pending request is dropped; position and `TXBUF` stay. -/
def tStop (s : State) : State := { s with tph := .stopped, fillPend := false }

/-- The body of `stop()` (40_lifecycle_commands.md R83), which PLAY's completion reuses (R82). -/
def haltPlayback (s : State) : State := { ampClear (tStop s) with state := .idle }

/-! ### The exception and the interrupt -/

/-- Taking `INIT_FATAL`, the one hardware exception (60_exceptions.md R133): it is recorded in `HALTED` and nowhere
else (R132); from then on the port accepts nothing. There is no handler and no return but a reset. -/
def takeInitFatal (s : State) : State := { s with halted := true }

/-- Leaving the fill interrupt, the end of every FILL (41_fill_engine.md R100, 60_exceptions.md R146): the request is
served, and a priming transmitter begins to stream. -/
def endFill (s : State) : State :=
  { s with fillPend := false, tph := if s.tph = .priming then .streaming else s.tph }

/-- The reset input (70_reset_and_hazards.md R157): every element of R15 at its value of 10_state.md R41. The
model's own fields stay, and the free contents of `TXBUF` are drawn anew. -/
def applyReset (s : State) : State :=
  { State.reset with
    frqN := BitVec.ofNat 16 s.blockWords
    cfg := s.cfg
    srcMem := s.srcMem
    calls := s.calls
    sched := s.sched
    turns := s.turns
    initDraws := s.initDraws
    epoch := s.epoch + 1 }

/-! ### The bookkeeping of a turn -/

/-- Whose turn it is (20_memory.md R52): as given, else as the free schedule says (log 6). -/
def nextTurn (s : State) : Turn :=
  match s.sched with
  | [] => Config.schedule s.turns
  | t :: _ => t

/-- The turn is taken. -/
def takeTurn (s : State) : State := { s with sched := s.sched.tail, turns := s.turns + 1 }

/-- The port latches a call (20_memory.md R60): it leaves the queue, and the stores the caller made before it are
visible (70_reset_and_hazards.md R161). -/
def latchCall (c : HostCall) (rest : List HostCall) (s : State) : State :=
  { s with calls := rest, srcMem := storeCells s.cfg s.srcMem c.stores }

/-- Present a descriptor to a ready port at the host's turn: what `withFetchWord` does for a command (log 17). -/
def presentCommand (d : Descriptor) (s : State) : State :=
  { s with
    calls := { stores := [], desc := d } :: s.calls
    hostPh := .ready
    halted := false
    sched := .host :: s.sched }

/-- Present a fill-request bundle at the fill engine's turn: what `withFetchWord` does for FILL (log 17). -/
def presentRequest (f : FillBundle) (s : State) : State :=
  { s with
    fillPend := true
    fillHalf := f.extractLsb' 16 1
    frqN := f.extractLsb' 0 16
    sched := .fillEngine :: s.sched }

end Sys2Proof.Machine
end

