-- ==== Sys2Proof/Machine/Operands.lean ====
section
/-! DEFINITION. Operands and their arithmetic: PLAY's view (20_memory.md R46, R47), the bytes of the view, the widening
and packing of samples (R48, R49), the cursor advance (41_fill_engine.md R96), the half-word the transmitter selects
(42_transmitter.md R116). Everything is unsigned (41_fill_engine.md R102). -/

namespace Sys2Proof.Machine

/-- `ADDR + LEN > 2^ADDR_W`, computed without truncation (20_memory.md R47). -/
def viewWraps (c : Config) (addr : Addr) (len : Len) : Bool :=
  decide (2 ^ c.addrW < addr.toNat + len.toNat)

/-- Two ranges `a .. a+m-1` and `b .. b+n-1` have an address in common. -/
def rangesMeet (a m b n : Nat) : Bool := decide (a < b + n) && decide (b < a + m)

/-- The view covers memory whose reads have side effects (20_memory.md R45). -/
def viewHasSideEffects (c : Config) (addr : Addr) (len : Len) : Bool :=
  c.sideEffects.any fun r => 0 < len.toNat && 0 < r.size && rangesMeet addr.toNat len.toNat r.base r.size

/-- The byte at offset `k` of the view: address `SRC_PTR + k` (20_memory.md R46). -/
def sourceByte (s : State) (k : Nat) : Byte := memRead s (s.srcPtr.toNat + k)

/-- A source byte as a half-word, `b << 8` (20_memory.md R48). -/
def widen (b : Byte) : HalfWord := b.zeroExtend 16 <<< 8

/-- `pack(b0, b1)` (41_fill_engine.md R95). -/
def pack (b0 b1 : Byte) : Word := (b1.zeroExtend 32 <<< 24) ||| (b0.zeroExtend 32 <<< 8)

/-- The cursor advance, `min(CURSOR + 2, SRC_LEN)` with the sum in 17 bits (41_fill_engine.md R96). -/
def advanceCursor (cursor srcLen : Len) : Len := BitVec.ofNat 16 (min (cursor.toNat + 2) srcLen.toNat)

/-- `half * B`, the word index at which a half begins (10_state.md R35). -/
def halfBase (s : State) (half : BitVec 1) : Nat := half.toNat * s.blockWords

/-- The half-word of a word that `HSEL` selects: 0 is bits [15:0], 1 is bits [31:16] (42_transmitter.md R116). -/
def laneOf (w : Word) (hsel : BitVec 1) : HalfWord :=
  if hsel = 0 then w.extractLsb' 0 16 else w.extractLsb' 16 16

end Sys2Proof.Machine
end

