-- ==== Sys2Proof/Machine/Flags.lean ====
section
/-! DEFINITION. Flags and outputs: the encodings of the enumerated registers, the derived signals, the `STATUS` word
(10_state.md R33, 30_encoding.md R70), the port signals (R63, R69) and the lines that leave the block. There are no
condition codes (10_state.md R32). -/

namespace Sys2Proof.Machine

/-- The encoding of `STATE` (10_state.md R22). -/
def stateBits : PlaybackState → BitVec 2
  | .idle => 0
  | .playing => 1
  | .finishing => 2
  | .finished => 3

/-- The encoding of `HOSTPH` (R28). -/
def hostPhBits : HostPhase → BitVec 1
  | .ready => 0
  | .wait => 1

/-- The encoding of `TPH` (R29). -/
def tphBits : TxPhase → BitVec 2
  | .stopped => 0
  | .priming => 1
  | .streaming => 2

/-- `RUN`: `TPH != STOPPED` (R29). -/
def runFlag (s : State) : Bool := s.tph != .stopped

/-- `BUSY`: `HOSTPH = WAIT` (R33). -/
def busyFlag (s : State) : Bool := s.hostPh == .wait

/-- `cmd_ready`: `HOSTPH = READY` and `HALTED = 0` (30_encoding.md R63). -/
def cmdReady (s : State) : Bool := s.hostPh == .ready && !s.halted

/-- `cmd_valid`: the host presents a descriptor (R63, log 9). -/
def cmdValid (s : State) : Bool := !s.calls.isEmpty

/-- The `STATUS` word, the host's read-only view of the block (30_encoding.md R70): `CURSOR` [31:16],
zeros [15:7], `BUSY`, `HALTED`, `INITED`, `RUN`, `AMP_EN`, `STATE` [1:0]. -/
def statusWord (s : State) : Word :=
  s.cursor ++ (0 : BitVec 9) ++ BitVec.ofBool (busyFlag s) ++ BitVec.ofBool s.halted ++ BitVec.ofBool s.inited
    ++ BitVec.ofBool (runFlag s) ++ BitVec.ofBool s.ampEn ++ stateBits s.state

/-- `fill_req`, equal to `FILL_PEND` (30_encoding.md R69). -/
def fillReq (s : State) : Bool := s.fillPend

/-- The operand bundle `FRQ` on the request interface (R69). -/
def frqBundle (s : State) : FillBundle := encodeFrq s.fillHalf s.frqN

/-- The EMIT about to be taken sends the first half-word of a half (42_transmitter.md R114). -/
def halfBegins (s : State) : Bool := s.txIdx == 0 && s.hsel == 0

/-- The level of the amplifier-enable pin. It follows the latch once `AMP.CFG` has configured it
(40_lifecycle_commands.md R84), in an electrical polarity that R84 and 91_not_in_source.md N23 leave open: a free value
(log 19). Between reset and INIT its level is not specified (70_reset_and_hazards.md R157): a free value too. -/
def ampPin (s : State) : Bool :=
  if s.inited || s.halted then s.ampEn == Config.ampActiveHigh else Config.freeAmpPin s.epoch

/-- The bits of one half-word on `SD`, most significant bit first, one per `SCK` period (42_transmitter.md R125).
PRESUMED: R125 has it from general knowledge (log 18). -/
def serialBits (h : HalfWord) : List Bool := (List.range 16).map fun k => h.getLsbD (15 - k)

/-- What has left on `SD` since reset: the half-words of `OUT`, each once and back to back (R125; PRESUMED, log 18).
DESIGN CHOICE (log 22): this is so whatever `CHANNEL_LAYOUT` is, which R126 leaves open. No half-word is repeated for
the other slot of a frame, and no slot is left empty. DESIGN CHOICE (log 23): the 16 bits of every emitted half-word
count as having left, also those of the last one before a `T.STOP`, of which 91_not_in_source.md N20 says not to assume
it. -/
def serialData (s : State) : List Bool := s.out.flatMap serialBits

/-- The level of `FS` during the k-th half-word slot: it changes once per slot, from a free first level (R125).
PRESUMED (log 18). The slots are those of `serialData`, whatever `CHANNEL_LAYOUT` is: DESIGN CHOICE (log 22). They are
numbered from reset on, so that a later session's first slot goes on with the level opposite to the last one of the
session before it: DESIGN CHOICE (log 24), since R127 leaves `FS` unspecified while nothing is sent. -/
def frameSync (k : Nat) : Bool := xor Config.fsPolarity (k % 2 == 1)

end Sys2Proof.Machine
end

