-- ==== Sys2Proof/Machine/Commands.lean ====
section
/-! DEFINITION. The host commands (40_lifecycle_commands.md): INIT R77, ENABLE R78, DISABLE R79, PLAY R80 to R82,
STOP R83, each with the admission tests of R76 that concern it. The decoding test comes first, at the port. -/

namespace Sys2Proof.Machine

/-- The test of R76 that every command but INIT makes: with `INITED` = 0 it is refused. -/
def whenInitialised (s : State) (next : Host.Outcome State Fault Refusal) : Host.Outcome State Fault Refusal :=
  if s.inited then next else .refused .notInitialised

/-- The outcome `init_ok` of the INIT about to be taken (R77): the one the configuration gives it, else a free draw
(00_scope.md R10, log 7). -/
def initDraw (s : State) : Bool := (s.cfg.initOk[s.initDraws]?).getD (Config.freeInitOk s.initDraws)

/-- INIT's acceptance step for a given `init_ok` (R77): AMP.CFG, then T.INIT and `STATE <- Idle`, or the exception. Its
success is the one initial condition the source states (70_reset_and_hazards.md R156): `STATE` Idle, and a transport
that is configured but not transferring. -/
def initStep (initOk : Bool) (s : State) : State :=
  if initOk then { tInit (ampCfg s) with state := .idle, inited := true } else takeInitFatal (ampCfg s)

/-- INIT (R77): refused when `INITED` = 1 (R76); else it draws `init_ok` (log 7). -/
def execInit (s : State) : Host.Outcome State Fault Refusal :=
  if s.inited then .refused .alreadyInitialised
  else .next (initStep (initDraw s) { s with initDraws := s.initDraws + 1 })

/-- ENABLE (R78). -/
def execEnable (s : State) : Host.Outcome State Fault Refusal := whenInitialised s (.next (ampSet s))

/-- DISABLE (R79). -/
def execDisable (s : State) : Host.Outcome State Fault Refusal := whenInitialised s (.next (ampClear s))

/-- PLAY's arming (R80) for a nonzero length: the view, `CURSOR <- 0`, `STATE <- Playing`, AMP.SET, T.START,
`HOSTPH <- WAIT`. -/
def armPlay (addr : Addr) (len : Len) (s : State) : State :=
  { tStart (ampSet { s with srcPtr := addr, srcLen := len, cursor := 0, state := .playing }) with hostPh := .wait }

/-- PLAY, acceptance (R80). `LEN = 0` does nothing and its `ADDR` is not checked; a view that wraps (R76) or covers
memory whose reads have side effects (20_memory.md R45, log 10) is refused. -/
def execPlay (addr : Addr) (len : Len) (s : State) : Host.Outcome State Fault Refusal :=
  whenInitialised s
    (if len = 0 then .next s
     else if viewWraps s.cfg addr len then .refused .viewWraps
     else if viewHasSideEffects s.cfg addr len then .refused .sourceHasSideEffects
     else .next (armPlay addr len s))

/-- PLAY, completion (R82), enabled when `HOSTPH = WAIT` and `STATE = Finished`: STOP's body, then the port is ready. -/
def completePlay (s : State) : State := { haltPlayback s with hostPh := .ready }

/-- STOP (R83), written for every value of `STATE`. -/
def execStop (s : State) : Host.Outcome State Fault Refusal := whenInitialised s (.next (haltPlayback s))

end Sys2Proof.Machine
end

