-- ==== Sys2Proof/Machine/Fill.lean ====
section
/-! DEFINITION. The fill engine and the FILL event (41_fill_engine.md R90 to R108). -/

namespace Sys2Proof.Machine

/-- One word-slot of a data fill (R94): two bytes of the view, or the last byte and a zero, and the cursor past them. -/
def fillSlot (w : Nat) (s : State) : State :=
  let k := s.cursor.toNat
  let b0 := sourceByte s k
  let b1 := if k + 1 < s.srcLen.toNat then sourceByte s (k + 1) else 0
  { txWrite s w (pack b0 b1) with cursor := advanceCursor s.cursor s.srcLen }

/-- `DATA_FILL(base, n)` (R93): slots while the source lasts, then zero padding. -/
def dataFill : Nat → Nat → State → State
  | _, 0, s => s
  | base, n + 1, s =>
    dataFill (base + 1) n (if s.cursor.toNat < s.srcLen.toNat then fillSlot base s else txWrite s base 0)

/-- `ZERO_FILL(base, n)` (R90). -/
def zeroFill : Nat → Nat → State → State
  | _, 0, s => s
  | base, n + 1, s => zeroFill (base + 1) n (txWrite s base 0)

/-- The state-dependent part of FILL, the table of R91, as a function apart from the enabling condition (R90). -/
def fillBody (half : BitVec 1) (n : Nat) (s : State) : State :=
  match s.state with
  | .idle => s
  | .playing =>
    if s.cursor.toNat < s.srcLen.toNat then dataFill (halfBase s half) n s
    else { zeroFill (halfBase s half) n s with state := .finishing }
  | .finishing => { zeroFill (halfBase s half) n s with state := .finished }
  | .finished => s

/-- FILL (R90): refused when `n > B`; else the table of R91, then the end of every FILL (R100). -/
def execFill (half : BitVec 1) (n : BitVec 16) (s : State) : Host.Outcome State Fault Refusal :=
  if s.blockWords < n.toNat then .refused .fillTooLarge else .next (endFill (fillBody half n.toNat s))

end Sys2Proof.Machine
end

