-- ==== Sys2Proof/Machine/Dispatch.lean ====
section
/-! DEFINITION. Which meaning runs which operation: one arm per constructor of Instr. -/

namespace Sys2Proof.Machine

def exec (i : Instr) (s : State) : Host.Outcome State Fault Refusal :=
  match i with
  | .init => Sys2Proof.Machine.execInit s
  | .enable => Sys2Proof.Machine.execEnable s
  | .disable => Sys2Proof.Machine.execDisable s
  | .play addr len => Sys2Proof.Machine.execPlay addr len s
  | .stop => Sys2Proof.Machine.execStop s
  | .fill half n => Sys2Proof.Machine.execFill half n s

end Sys2Proof.Machine
end

