-- ==== Sys2Proof/Machine/Transmitter.lean ====
section
/-! DEFINITION. The transmitter's emit step (42_transmitter.md R113 to R119). -/

namespace Sys2Proof.Machine

/-- Advancing the position (R117): `HSEL`, then `TXIDX` 0 to `B-1`, then the other half, without end. -/
def advancePosition (s : State) : State :=
  if s.hsel = 0 then { s with hsel := 1 }
  else if s.txIdx.toNat + 1 = s.blockWords then { s with hsel := 0, txIdx := 0, txHalf := 1 - s.txHalf }
  else { s with hsel := 0, txIdx := s.txIdx + 1 }

/-- The word index of the position, `TXHALF * B + TXIDX` (10_state.md R21). -/
def positionWord (s : State) : Nat := halfBase s s.txHalf + s.txIdx.toNat

/-- The half-word at the position (R114, R116). -/
def positionHalfWord (s : State) : HalfWord := laneOf (txRead s (positionWord s)) s.hsel

/-- The request raised at the first half-word of a half, for the other half (R115). -/
def requestIfHalfBegins (s : State) : State := if halfBegins s then raiseRequest (1 - s.txHalf) s else s

/-- What an EMIT without underrun does (R114): the request, the half-word to `OUT`, the position. -/
def emitHalfWord (s : State) : State :=
  advancePosition { requestIfHalfBegins s with out := s.out ++ [positionHalfWord s] }

/-- EMIT (R114), enabled when `TPH = STREAMING`: an underrun when a half begins while a request is pending (R119). -/
def emit (s : State) : Host.Outcome State Fault Refusal :=
  if halfBegins s && s.fillPend then .fault .underrun
  else if s.txIdx.toNat < s.blockWords then .next (emitHalfWord s)
  else .fault .noSuchWord

end Sys2Proof.Machine
end

