-- ==== Sys2Proof/Machine/Turns.lean ====
section
/-! DEFINITION. What each agent does at its turn (60_exceptions.md R150): a step where one is enabled, else a hold
(R139), at which nothing happens. -/

namespace Sys2Proof.Machine

/-- The port accepts the call at its head (40_lifecycle_commands.md R76): decoded first, then admitted and run. -/
def acceptCall (c : HostCall) (rest : List HostCall) (s : State) : Host.Outcome State Fault Refusal :=
  match decodeCmd s.cfg.addrW c.desc with
  | .instr i => exec i (latchCall c rest s)
  | .reservedEncoding => .refused .reservedEncoding

/-- The host (R150): a command's acceptance while the port is ready (30_encoding.md R63), PLAY's completion when it
waits and `STATE = Finished` (R82), else a hold (R81, R139). A halted block is stuck (R133, log 13): R139 calls that no
hold but a stop for good. -/
def hostTurn (s : State) : Host.Outcome State Fault Refusal :=
  match s.hostPh with
  | .wait => if s.state = .finished then .next (completePlay s) else .next s
  | .ready =>
    if s.halted then .next s
    else
      match s.calls with
      | [] => .next s
      | c :: rest => acceptCall c rest s

/-- The fill engine: the FILL on the request interface while `FILL_PEND = 1` (41_fill_engine.md R90), else a hold. -/
def fillTurn (s : State) : Host.Outcome State Fault Refusal :=
  if s.fillPend then exec (.fill s.fillHalf s.frqN) s else .next s

/-- The transmitter: EMIT while `TPH = STREAMING` (42_transmitter.md R113), else a hold. -/
def emitTurn (s : State) : Host.Outcome State Fault Refusal :=
  if s.tph = .streaming then emit s else .next s

/-- The reset input (70_reset_and_hazards.md R157). During a session there is no move for it (R158, R155; log 11). -/
def resetTurn (s : State) : Host.Outcome State Fault Refusal :=
  match s.hostPh with
  | .ready => .next (applyReset s)
  | .wait => .next s

/-- What the taker of a turn does. -/
def runTurn (t : Turn) (s : State) : Host.Outcome State Fault Refusal :=
  match t with
  | .host => hostTurn s
  | .fillEngine => fillTurn s
  | .transmitter => emitTurn s
  | .reset => resetTurn s

/-- Store an instruction's bits where the next turn finds it: a row of up to 32 bits is a fill request, a wider one a
command descriptor (logs 17 and 21). -/
def placeInstruction (nbits w : Nat) (s : State) : State :=
  if nbits ≤ 32 then presentRequest (BitVec.ofNat 17 w) s else presentCommand (BitVec.ofNat 96 w) s

end Sys2Proof.Machine
end

