-- ==== Sys2Proof/Safety.lean ====
section
/-! DEFINITION. What counts as a safe run, in the terms the statements use: which steps are enabled, when a run is over
(70_reset_and_hazards.md R174), the invariants of 10_state.md R40, and what a session sends (42_transmitter.md R121,
R122). -/

namespace Sys2Proof.Machine

/-- The taker of a turn has a step (60_exceptions.md R139, R150). -/
def enabled : Turn → State → Bool
  | .host, s => (s.hostPh == .wait && s.state == .finished) || (cmdReady s && cmdValid s)
  | .fillEngine, s => s.fillPend
  | .transmitter, s => s.tph == .streaming
  | .reset, s => s.hostPh == .ready

/-- A run is over (70_reset_and_hazards.md R174); that no fault and no refusal has been recorded is that the run still
has a state. -/
structure RunOver (s : State) : Prop where
  no_command : s.calls = []
  ready : s.hostPh = .ready
  not_halted : s.halted = false
  idle : s.state = .idle
  stopped : s.tph = .stopped
  no_request : s.fillPend = false

/-- A deadlock (R174): the host waits and no agent can step. -/
def Deadlocked (s : State) : Prop :=
  s.hostPh = .wait ∧ enabled .host s = false ∧ enabled .fillEngine s = false ∧ enabled .transmitter s = false

/-- The invariants of 10_state.md R40 (items 1 to 8), with what they rest on: the legal configuration, the canonical
form of the two memories, the range of `TXIDX` (R21), the request's `n = B` (30_encoding.md R69) and the view inside
the address space (20_memory.md R47). -/
structure BlockInv (s : State) : Prop where
  cfg_legal : s.cfg.legal = true
  txbuf_canonical : TxBuf.wf s.cfg s.txbuf
  source_canonical : Memory.wf s.cfg s.srcMem
  view_fits : s.srcPtr.toNat + s.srcLen.toNat ≤ 2 ^ s.cfg.addrW
  index_in_half : s.txIdx.toNat < s.blockWords
  request_full : s.fillPend = true → s.frqN.toNat = s.blockWords
  /-- R40 item 1. -/
  cursor_in_view : s.cursor.toNat ≤ s.srcLen.toNat
  /-- R40 item 2. -/
  ready_quiet : s.hostPh = .ready → s.state = .idle ∧ s.tph = .stopped ∧ s.fillPend = false
  /-- R40 item 3. -/
  session_live : s.state ≠ .idle → s.hostPh = .wait ∧ s.inited = true ∧ s.ampEn = true ∧ s.tph ≠ .stopped
  /-- A waiting host has a session (R28). -/
  wait_session : s.hostPh = .wait → s.state ≠ .idle
  /-- R40 item 4. -/
  priming_fresh : s.tph = .priming →
    s.fillPend = true ∧ s.fillHalf = 0 ∧ s.txHalf = 0 ∧ s.txIdx = 0 ∧ s.hsel = 0 ∧ s.state = .playing ∧ s.cursor = 0
  /-- R40 item 5. -/
  pending_half : s.tph = .streaming → s.fillPend = true →
    s.fillHalf ≠ s.txHalf ∨ (s.fillHalf = s.txHalf ∧ s.txIdx = 0 ∧ s.hsel = 0)
  /-- R40 item 6. -/
  drained_cursor : s.state = .finishing ∨ s.state = .finished → s.cursor = s.srcLen
  /-- R40 item 7. -/
  cursor_even : s.cursor.toNat % 2 = 0 ∨ s.cursor = s.srcLen
  /-- R40 item 8. -/
  halted_uninitialised : s.halted = true → s.inited = false

/-- The k-th half-word of the sequence `S` of 42_transmitter.md R121: `b[k] << 8` while the source lasts, then
`0x0000` without end. -/
def streamHalfWord (s : State) (k : Nat) : HalfWord :=
  if k < s.srcLen.toNat then widen (sourceByte s k) else 0

/-- The w-th word of that sequence, two half-words to a word, the first in bits [15:0] (20_memory.md R49). -/
def streamWord (s : State) (w : Nat) : Word := streamHalfWord s (2 * w + 1) ++ streamHalfWord s (2 * w)

/-- The word a FILL writes for offset `k` of the view (41_fill_engine.md R93 to R96): two bytes packed, the last byte
of an odd source with a zero, or zero padding past the end. -/
def viewWord (s : State) (k : Nat) : Word :=
  if k < s.srcLen.toNat then pack (sourceByte s k) (if k + 1 < s.srcLen.toNat then sourceByte s (k + 1) else 0) else 0

/-- `D` of 41_fill_engine.md R106 for a block of `n` words: `ceil(ceil(L / 2) / n)`, the data fills of a session. -/
def dataFills (len n : Nat) : Nat := ((len + 1) / 2 + n - 1) / n

/-- The state of a session after `f` FILLs, `d` of them data fills (R106). -/
def stateAfterFills (d f : Nat) : PlaybackState :=
  if f ≤ d then .playing else if f = d + 1 then .finishing else .finished

/-- How many FILLs have been served when `m` half-words of a session have been sent, blocks of `b` words, and a
request is pending or not: FILL `j + 1` is requested at the first half-word of block `j` (42_transmitter.md R115). -/
def fillsServed (b m : Nat) (pending : Bool) : Nat :=
  m / (2 * b) + (if m % (2 * b) = 0 then 0 else 1) + (if pending then 0 else 1)

/-- The position of the transmitter as the number of half-words from the beginning of `TXBUF` (10_state.md R21). -/
def ringPosition (s : State) : Nat := 2 * positionWord s + s.hsel.toNat

/-- A session that began when `OUT` was `before`, after `m` half-words and `f` FILLs: what has been sent is the first
`m` half-words of `S` (42_transmitter.md R121), the last two blocks written hold their words of `S`, and the
registers are where `m` and `f` put them (R115, R117; 41_fill_engine.md R106). -/
structure SessionAt (before : List HalfWord) (m f : Nat) (s : State) : Prop where
  waiting : s.hostPh = .wait
  source_nonempty : 0 < s.srcLen.toNat
  sent : s.out = before ++ (List.range m).map (streamHalfWord s)
  position : ringPosition s = m % (4 * s.blockWords)
  cursor_after : s.cursor.toNat = min (2 * s.blockWords * f) s.srcLen.toNat
  state_after : s.state = stateAfterFills (dataFills s.srcLen.toNat s.blockWords) f
  blocks_written : ∀ b i, b < f → f ≤ b + 2 → i < s.blockWords →
    cellRead s.txbuf (b % 2 * s.blockWords + i) = some (streamWord s (b * s.blockWords + i))
  request_half : s.fillPend = true → s.fillHalf.toNat = f % 2
  served : (s.tph = .priming ∧ m = 0 ∧ f = 0 ∧ s.fillPend = true) ∨
    (s.tph = .streaming ∧ f = fillsServed s.blockWords m s.fillPend)

/-- A session that began when `OUT` was `before` is under way. -/
def InSession (before : List HalfWord) (s : State) : Prop := ∃ m f, SessionAt before m f s

/-- Both halves of `TXBUF` hold silence (42_transmitter.md R122). -/
def BothHalvesSilent (s : State) : Prop := ∀ i < 2 * s.blockWords, cellRead s.txbuf i = some 0

end Sys2Proof.Machine
end

