-- ==== Sys2Proof/Certificates/Slice0/Obligations.lean ====
section
/-! DEFINITION. The statements for the provers. Each docstring names the rule of spec/ the statement rests on. -/

open Sys2Proof Sys2Proof.Machine

/-! ### Encoding -/

/-- Decoding the encoding of a well-formed operation gives it back, for every operand (30_encoding.md R64, R66, R69). -/
def Obligations.DecodeEncodeAgree : Prop :=
  ∀ (addrW : Nat) (i : Instr), i.wellFormed addrW = true → decode addrW (encode i) = .instr i

/-- Each descriptor the decoder accepts, and each fill bundle, is the encoding of what it decodes to (R64 to R69). -/
def Obligations.EncodeDecodeAgree : Prop :=
  (∀ (addrW : Nat) (d : Descriptor) (i : Instr),
    decodeCmd addrW d = .instr i → i.wellFormed addrW = true ∧ encode i = .cmd d) ∧
  ∀ f : FillBundle, encode (decodeFrq f) = .evt f

/-- R66: a descriptor spells a row's command exactly when `d & mask = match`; the five patterns are disjoint; every
other descriptor is reserved. -/
def Obligations.DescriptorSpellsItsRow : Prop :=
  ∀ d : BitVec 64,
    (∀ r ∈ opcodeMap, r.spells d = true ↔
      ∃ i, decodeCmd 32 (d.setWidth 96) = .instr i ∧ i.mnemonic = r.mnemonic) ∧
    (∀ r ∈ opcodeMap, ∀ q ∈ opcodeMap, r.spells d = true → q.spells d = true → r = q) ∧
    ((∀ r ∈ opcodeMap, r.spells d = false) ↔ decodeCmd 32 (d.setWidth 96) = .reservedEncoding)

/-- R67: which descriptors are reserved, and that the port refuses them by name. -/
def Obligations.ReservedDescriptorsRefused : Prop :=
  (∀ d : BitVec 64,
    decodeCmd 32 (d.setWidth 96) = .reservedEncoding ↔
      ((d.extractLsb' 0 4).toNat = 0 ∨ 6 ≤ (d.extractLsb' 0 4).toNat) ∨
      ((d.extractLsb' 0 4).toNat ∈ [1, 2, 3, 5] ∧ d.extractLsb' 4 60 ≠ 0) ∨
      ((d.extractLsb' 0 4).toNat = 4 ∧ d.extractLsb' 4 12 ≠ 0)) ∧
  ∀ (s : State) (c : HostCall) (rest : List HostCall),
    nextTurn s = .host → s.hostPh = .ready → s.halted = false → s.calls = c :: rest →
    decodeCmd s.cfg.addrW c.desc = .reservedEncoding → step s = .refused .reservedEncoding

/-- The descriptors of 30_encoding.md R72 and 95_test_vectors.md 2.1, written out, decode to their calls. -/
def Obligations.SpecDescriptorsDecode : Prop :=
  decodeCmd 32 0x0000000000000001 = .instr .init ∧
  decodeCmd 32 0x0000000000000002 = .instr .enable ∧
  decodeCmd 32 0x0000000000000003 = .instr .disable ∧
  decodeCmd 32 0x2000100000040004 = .instr (.play 0x20001000 4) ∧
  decodeCmd 32 0x00000100FFFF0004 = .instr (.play 0x00000100 65535) ∧
  decodeCmd 32 0x0000000000000005 = .instr .stop ∧
  decodeFrq 0x101F4 = .fill 1 500

/-- 30_encoding.md R69: the request bundle carries `n` in [15:0] and `FILL_HALF` in bit 16, and is read back as the
FILL with those operands. -/
def Obligations.RequestBundleFields : Prop :=
  ∀ s : State, (frqBundle s).extractLsb' 0 16 = s.frqN ∧ (frqBundle s).extractLsb' 16 1 = s.fillHalf ∧
    decodeFrq (frqBundle s) = .fill s.fillHalf s.frqN

/-- R70: the fields of the `STATUS` word. -/
def Obligations.StatusWordFields : Prop :=
  ∀ s : State,
    (statusWord s).extractLsb' 0 2 =
      (match s.state with | .idle => 0 | .playing => 1 | .finishing => 2 | .finished => 3) ∧
    (statusWord s).getLsbD 2 = s.ampEn ∧
    ((statusWord s).getLsbD 3 = true ↔ s.tph ≠ .stopped) ∧
    (statusWord s).getLsbD 4 = s.inited ∧
    (statusWord s).getLsbD 5 = s.halted ∧
    ((statusWord s).getLsbD 6 = true ↔ s.hostPh = .wait) ∧
    (statusWord s).extractLsb' 7 9 = 0 ∧
    (statusWord s).extractLsb' 16 16 = s.cursor

/-! ### Host commands: results and frames -/

/-- R77: with `INITED` = 0, INIT clears the amplifier latch and then, as the draw falls, either leaves the transmitter
stopped and `STATE` Idle with `INITED` set, or halts; nothing else changes but the model's draw counter (log 7). A
second INIT is refused (R76). -/
def Obligations.InitTakesEffect : Prop :=
  ∀ s : State,
    (s.inited = false → exec .init s = .next
      (if initDraw s then
        { s with ampEn := false, tph := .stopped, fillPend := false, state := .idle, inited := true,
                 initDraws := s.initDraws + 1 }
      else { s with ampEn := false, halted := true, initDraws := s.initDraws + 1 })) ∧
    (s.inited = true → exec .init s = .refused .alreadyInitialised)

/-- R78: ENABLE sets the latch and changes nothing else. -/
def Obligations.EnableSetsAmplifier : Prop :=
  ∀ s : State, s.inited = true → exec .enable s = .next { s with ampEn := true }

/-- R79: DISABLE clears the latch and changes nothing else. -/
def Obligations.DisableClearsAmplifier : Prop :=
  ∀ s : State, s.inited = true → exec .disable s = .next { s with ampEn := false }

/-- R83: STOP, from every value of `STATE`, halts the transmitter, drops a pending request, clears the latch and goes
to Idle; `TXBUF`, `CURSOR`, the position and all else stay. -/
def Obligations.StopHaltsPlayback : Prop :=
  ∀ s : State, s.inited = true →
    exec .stop s = .next { s with tph := .stopped, fillPend := false, ampEn := false, state := .idle }

/-- R80 with `LEN = 0`: nothing changes, whatever `ADDR` is. -/
def Obligations.PlayOfNothingIsNoop : Prop :=
  ∀ (s : State) (addr : Addr), s.inited = true → exec (.play addr 0) s = .next s

/-- R80 with `LEN` nonzero: the arming, for a view that fits the address space and meets no address with a read side
effect. The request's `n = B` is R69's, held in the model's field (log 8). -/
def Obligations.PlayArmsSession : Prop :=
  ∀ (s : State) (addr : Addr) (len : Len), s.inited = true → len ≠ 0 →
    addr.toNat + len.toNat ≤ 2 ^ s.cfg.addrW →
    (∀ r ∈ s.cfg.sideEffects, ∀ x, addr.toNat ≤ x → x < addr.toNat + len.toNat →
      ¬(r.base ≤ x ∧ x < r.base + r.size)) →
    exec (.play addr len) s = .next
      { s with srcPtr := addr, srcLen := len, cursor := 0, state := .playing, ampEn := true,
               txHalf := 0, txIdx := 0, hsel := 0, fillPend := true, fillHalf := 0,
               frqN := BitVec.ofNat 16 (s.cfg.bufWords / 2), tph := .priming, hostPh := .wait }

/-- 40_lifecycle_commands.md R76, 20_memory.md R45 and R47: the two views PLAY refuses. -/
def Obligations.PlayRefusesBadView : Prop :=
  ∀ (s : State) (addr : Addr) (len : Len), s.inited = true → len ≠ 0 →
    (2 ^ s.cfg.addrW < addr.toNat + len.toNat → exec (.play addr len) s = .refused .viewWraps) ∧
    (addr.toNat + len.toNat ≤ 2 ^ s.cfg.addrW →
      (∃ r ∈ s.cfg.sideEffects, ∃ x, addr.toNat ≤ x ∧ x < addr.toNat + len.toNat ∧
        r.base ≤ x ∧ x < r.base + r.size) →
      exec (.play addr len) s = .refused .sourceHasSideEffects)

/-- R76: every command but INIT is refused while `INITED` = 0, before its operands are looked at. -/
def Obligations.NotInitialisedRefused : Prop :=
  ∀ (s : State) (i : Instr), s.inited = false →
    (i = .enable ∨ i = .disable ∨ i = .stop ∨ ∃ addr len, i = .play addr len) →
    exec i s = .refused .notInitialised

/-- R87: ENABLE, DISABLE and STOP applied twice leave what one leaves, PLAY of no bytes any number of times leaves the
state, and INIT after an INIT that succeeded is refused. -/
def Obligations.CommandsIdempotent : Prop :=
  (∀ (i : Instr) (s t : State), (i = .enable ∨ i = .disable ∨ i = .stop) → exec i s = .next t →
    exec i t = .next t) ∧
  (∀ (addr : Addr) (s t : State), exec (.play addr 0) s = .next t → t = s) ∧
  ∀ s : State, exec .init (initStep true s) = .refused .alreadyInitialised

/-! ### FILL -/

/-- R92, R99 and R100: FILL in Idle and in Finished writes no word and moves nothing but the request flag and, from
priming, the transmitter's phase. -/
def Obligations.FillIdleOrFinishedIsNoop : Prop :=
  ∀ (s : State) (half : BitVec 1) (n : BitVec 16), n.toNat ≤ s.blockWords →
    (s.state = .idle ∨ s.state = .finished) →
    exec (.fill half n) s = .next
      { s with fillPend := false, tph := if s.tph = .priming then .streaming else s.tph }

/-- R97, R98 and R100: the two blocks of silence. Every word of the block is zero after, every other word of `TXBUF`
as before, `STATE` moves one on; `CURSOR` and all else stay. -/
def Obligations.FillWritesSilence : Prop :=
  ∀ (s : State) (half : BitVec 1) (n : BitVec 16) (next : PlaybackState), n.toNat ≤ s.blockWords →
    ((s.state = .playing ∧ s.srcLen.toNat ≤ s.cursor.toNat ∧ next = .finishing) ∨
      (s.state = .finishing ∧ next = .finished)) →
    ∃ words : List (Nat × Word),
      exec (.fill half n) s = .next
        { s with txbuf := words, state := next, fillPend := false,
                 tph := if s.tph = .priming then .streaming else s.tph } ∧
      ∀ i, cellRead words i =
        if half.toNat * s.blockWords ≤ i ∧ i < half.toNat * s.blockWords + n.toNat then some 0
        else cellRead s.txbuf i

/-- R93 to R96 and R100: the data fill. Word `j` of the block holds the two bytes of the view at `CURSOR + 2 j`, or the
last byte and a zero, or zero padding; every other word of `TXBUF` is as before; `CURSOR` advances by `2 n` as far as
`SRC_LEN`; `STATE` stays Playing and all else stays. -/
def Obligations.FillPacksSamples : Prop :=
  ∀ (s : State) (half : BitVec 1) (n : BitVec 16), n.toNat ≤ s.blockWords → s.state = .playing →
    s.cursor.toNat < s.srcLen.toNat →
    ∃ (words : List (Nat × Word)) (cursor : Len),
      exec (.fill half n) s = .next
        { s with txbuf := words, cursor := cursor, fillPend := false,
                 tph := if s.tph = .priming then .streaming else s.tph } ∧
      cursor.toNat = min (s.cursor.toNat + 2 * n.toNat) s.srcLen.toNat ∧
      ∀ i, cellRead words i =
        if half.toNat * s.blockWords ≤ i ∧ i < half.toNat * s.blockWords + n.toNat then
          some (viewWord s (s.cursor.toNat + 2 * (i - half.toNat * s.blockWords)))
        else cellRead s.txbuf i

/-- R90: a FILL larger than a half is refused. -/
def Obligations.FillTooLargeRefused : Prop :=
  ∀ (s : State) (half : BitVec 1) (n : BitVec 16), s.blockWords < n.toNat →
    exec (.fill half n) s = .refused .fillTooLarge

/-- R101: a FILL changes `STATE` at most once, to the next value in order, and not when it consumes a byte. -/
def Obligations.FillMakesOneTransition : Prop :=
  ∀ (s : State) (half : BitVec 1) (n : BitVec 16), n.toNat ≤ s.blockWords →
    ∃ t, exec (.fill half n) s = .next t ∧
      (t.state = s.state ∨ (s.state = .playing ∧ t.state = .finishing) ∨
        (s.state = .finishing ∧ t.state = .finished)) ∧
      (t.cursor ≠ s.cursor → t.state = s.state)

/-- R106: after `j` FILLs of `n` words of a session, `CURSOR` and `STATE` are as the counts say, whatever the halves. It
speaks of the state-dependent part of FILL (R90), which is defined for every `n`; `exec` refuses those above `B`. -/
def Obligations.FillCountsOfSession : Prop :=
  ∀ (s : State) (n : Nat) (halves : List (BitVec 1)), s.state = .playing → s.cursor = 0 → 0 < s.srcLen.toNat →
    1 ≤ n →
    (halves.foldl (fun u h => fillBody h n u) s).cursor.toNat = min (2 * n * halves.length) s.srcLen.toNat ∧
    (halves.foldl (fun u h => fillBody h n u) s).state =
      stateAfterFills (dataFills s.srcLen.toNat n) halves.length

/-- R95: the two lanes of a packed word, each its byte over eight zero bits. -/
def Obligations.PackLanes : Prop :=
  ∀ b0 b1 : Byte, (pack b0 b1).extractLsb' 0 16 = b0 ++ (0 : BitVec 8) ∧
    (pack b0 b1).extractLsb' 16 16 = b1 ++ (0 : BitVec 8) ∧
    (pack b0 b1).toNat = b1.toNat * 2 ^ 24 + b0.toNat * 2 ^ 8

/-! ### The transmitter -/

/-- R114 to R117: an EMIT without underrun raises the request for the other half at the first half-word of a half,
appends the half-word at the position, advances the position, and changes nothing else. That the bundle's `n` is
renewed with the request is the model's field (log 8). -/
def Obligations.EmitSendsHalfWord : Prop :=
  ∀ s : State, ¬(s.txIdx = 0 ∧ s.hsel = 0 ∧ s.fillPend = true) → s.txIdx.toNat < s.blockWords →
    emit s = .next
      { s with
        out := s.out ++
          [if s.hsel = 0 then (txRead s (s.txHalf.toNat * s.blockWords + s.txIdx.toNat)).extractLsb' 0 16
           else (txRead s (s.txHalf.toNat * s.blockWords + s.txIdx.toNat)).extractLsb' 16 16]
        fillPend := if s.txIdx = 0 ∧ s.hsel = 0 then true else s.fillPend
        fillHalf := if s.txIdx = 0 ∧ s.hsel = 0 then 1 - s.txHalf else s.fillHalf
        frqN := if s.txIdx = 0 ∧ s.hsel = 0 then BitVec.ofNat 16 s.blockWords else s.frqN
        hsel := if s.hsel = 0 then 1 else 0
        txIdx := if s.hsel = 0 then s.txIdx else if s.txIdx.toNat + 1 = s.blockWords then 0 else s.txIdx + 1
        txHalf := if s.hsel ≠ 0 ∧ s.txIdx.toNat + 1 = s.blockWords then 1 - s.txHalf else s.txHalf }

/-- R119: a half that begins while a request is pending is an underrun. -/
def Obligations.LateFillUnderruns : Prop :=
  ∀ s : State, nextTurn s = .transmitter → s.tph = .streaming → s.txIdx = 0 → s.hsel = 0 → s.fillPend = true →
    step s = .fault .underrun

/-- R113: EMIT is enabled exactly in streaming, and does not read `STATE`, `CURSOR`, `SRC_PTR` or `SRC_LEN`. -/
def Obligations.EmitIgnoresSession : Prop :=
  (∀ s, enabled .transmitter s = true ↔ s.tph = .streaming) ∧
  (∀ s, s.tph ≠ .streaming → emitTurn s = .next s) ∧
  ∀ (s t : State) (state : PlaybackState) (cursor srcLen : Len) (srcPtr : Addr), emit s = .next t →
    emit { s with state := state, cursor := cursor, srcPtr := srcPtr, srcLen := srcLen } =
      .next { t with state := state, cursor := cursor, srcPtr := srcPtr, srcLen := srcLen }

/-- R117: the position goes round the `4 B` half-words of `TXBUF`, one at each EMIT, and names a word of it. -/
def Obligations.PositionGoesRound : Prop :=
  ∀ s t : State, s.blockWords ≤ 32767 → emit s = .next t →
    ringPosition t = (ringPosition s + 1) % (4 * s.blockWords) ∧ t.txIdx.toNat < s.blockWords

/-! ### Steps -/

/-- 30_encoding.md R63, 40_lifecycle_commands.md R76: at the host's turn a ready port accepts the call at its head, and
the step is `exec` of the decoded command on the state with the call latched: it leaves the queue, and the caller's
stores are in place (logs 5 and 9); the schedule's fields are the model's (log 6). -/
def Obligations.StepRunsAcceptedCommand : Prop :=
  ∀ (s : State) (c : HostCall) (rest : List HostCall) (i : Instr),
    nextTurn s = .host → s.hostPh = .ready → s.halted = false → s.calls = c :: rest →
    decodeCmd s.cfg.addrW c.desc = .instr i →
    i.wellFormed s.cfg.addrW = true ∧
    step s = exec i
      { s with calls := rest, srcMem := storeCells s.cfg s.srcMem c.stores, sched := s.sched.tail,
               turns := s.turns + 1 }

/-- 41_fill_engine.md R90: at the fill engine's turn a pending request is served, with the bundle's operands; the
schedule's fields are the model's (log 6). -/
def Obligations.StepServesRequest : Prop :=
  ∀ (s : State) (i : Instr), nextTurn s = .fillEngine → s.fillPend = true → decodeFrq (frqBundle s) = i →
    i = .fill s.fillHalf s.frqN ∧ step s = exec i { s with sched := s.sched.tail, turns := s.turns + 1 }

/-- 42_transmitter.md R113: at the transmitter's turn a streaming transmitter emits; the schedule's fields are the
model's (log 6). -/
def Obligations.StepEmitsWhileStreaming : Prop :=
  ∀ s : State, nextTurn s = .transmitter → s.tph = .streaming →
    step s = emit { s with sched := s.sched.tail, turns := s.turns + 1 }

/-- R82: PLAY's completion; the schedule's fields are the model's (log 6). -/
def Obligations.StepCompletesPlay : Prop :=
  ∀ s : State, nextTurn s = .host → s.hostPh = .wait → s.state = .finished →
    step s = .next
      { s with tph := .stopped, fillPend := false, ampEn := false, state := .idle, hostPh := .ready,
               sched := s.sched.tail, turns := s.turns + 1 }

/-- 60_exceptions.md R139, R150: a turn whose taker has no step changes nothing but the schedule, which is the
model's (log 6). Two of these turns are no hold of R139: the reset input's turn in a session, where R155 and R158 give
it no move, and the model's choice is that nothing changes (log 11); and a halted block's host turn, R139's "stop for
good" and R133's stuck block, which the model takes as a turn at which nothing changes (log 13). -/
def Obligations.StepHoldsWhenNotEnabled : Prop :=
  ∀ s : State, enabled (nextTurn s) s = false →
    step s = .next { s with sched := s.sched.tail, turns := s.turns + 1 }

/-- 70_reset_and_hazards.md R157, 10_state.md R41: the reset input outside a session puts every element the table
gives a value for at that value. That `TXBUF` lists nothing, and that the configuration, source memory and the
waiting calls stay, are the model's choices (logs 3 and 11). -/
def Obligations.ResetInputRestoresTable : Prop :=
  ∀ s : State, nextTurn s = .reset → s.hostPh = .ready →
    ∃ t, step s = .next t ∧ t.state = .idle ∧ t.srcLen = 0 ∧ t.cursor = 0 ∧ t.ampEn = false ∧ t.inited = false ∧
      t.halted = false ∧ t.hostPh = .ready ∧ t.tph = .stopped ∧ t.fillPend = false ∧ t.fillHalf = 0 ∧
      t.txHalf = 0 ∧ t.txIdx = 0 ∧ t.hsel = 0 ∧ t.out = [] ∧ (∀ i, cellRead t.txbuf i = none) ∧
      t.cfg = s.cfg ∧ t.srcMem = s.srcMem ∧ t.calls = s.calls

/-- 10_state.md R41: what reset leaves, in every element the table gives a value for. That `TXBUF` lists nothing is the
model's form of its unspecified contents (log 3). -/
def Obligations.ResetTableValues : Prop :=
  State.reset.state = .idle ∧ State.reset.srcLen = 0 ∧ State.reset.cursor = 0 ∧ State.reset.ampEn = false ∧
  State.reset.inited = false ∧ State.reset.halted = false ∧ State.reset.hostPh = .ready ∧
  State.reset.tph = .stopped ∧ State.reset.fillPend = false ∧ State.reset.fillHalf = 0 ∧ State.reset.txHalf = 0 ∧
  State.reset.txIdx = 0 ∧ State.reset.hsel = 0 ∧ State.reset.out = [] ∧
  (∀ i, cellRead State.reset.txbuf i = none) ∧ statusWord State.reset = 0

/-- R133: a halted block is stuck. Whatever the agents' turns, as long as the reset input is not applied, nothing
changes but the schedule, which is the model's (log 6). -/
def Obligations.HaltedBlockIsStuck : Prop :=
  ∀ (s : State) (given rest : List Turn), s.halted = true → s.hostPh = .ready → s.tph = .stopped →
    s.fillPend = false → Turn.reset ∉ given → s.sched = given ++ rest →
    Host.Core.run Sys2Proof.core given.length s = .next { s with sched := rest, turns := s.turns + given.length }

/-- R118 and R137: until the fill engine steps, a priming session hangs: nothing is sent and the host waits. The
turns may hold reset turns: that the reset input has no move in a session, and so does not lift the hang here, is the
model's choice (log 11; R158 "the model has no move for it"), and R169's "only reset recovers" is no part of this
statement. The given schedule is the model's (log 6). -/
def Obligations.PrimingHangsWithoutFill : Prop :=
  ∀ (s : State) (given rest : List Turn), s.tph = .priming → s.hostPh = .wait → s.state ≠ .finished →
    Turn.fillEngine ∉ given → s.sched = given ++ rest →
    Host.Core.run Sys2Proof.core given.length s = .next { s with sched := rest, turns := s.turns + given.length }

/-! ### Invariants and rules of the whole machine -/

/-- The invariants of 10_state.md R40, and what they rest on, hold at reset. -/
def Obligations.ResetMeetsInvariants : Prop := BlockInv State.reset

/-- The invariants of R40, and what they rest on, are kept by every step. -/
def Obligations.StepKeepsInvariants : Prop := ∀ s t : State, BlockInv s → step s = .next t → BlockInv t

/-- 60_exceptions.md R132, R135: under the invariants the only fault is the underrun, at the transmitter's turn. -/
def Obligations.OnlyUnderrunFaults : Prop :=
  ∀ (s : State) (r : Fault), BlockInv s → step s = .fault r →
    r = .underrun ∧ nextTurn s = .transmitter ∧ s.tph = .streaming ∧ s.txIdx = 0 ∧ s.hsel = 0 ∧ s.fillPend = true

/-- R132: under the invariants only the acceptance of a command is ever refused; no FILL the block asks for is. -/
def Obligations.OnlyCommandsRefused : Prop :=
  ∀ (s : State) (r : Refusal), BlockInv s → step s = .refused r →
    nextTurn s = .host ∧ s.hostPh = .ready ∧ s.halted = false ∧ s.calls ≠ [] ∧ r ≠ .fillTooLarge

/-- R23: the only transitions of `STATE`, and whose they are. -/
def Obligations.StateTransitionsInOrder : Prop :=
  ∀ s t : State, BlockInv s → step s = .next t →
    t.state = s.state ∨
    (s.state = .idle ∧ t.state = .playing ∧ nextTurn s = .host) ∨
    (s.state = .playing ∧ t.state = .finishing ∧ nextTurn s = .fillEngine) ∨
    (s.state = .finishing ∧ t.state = .finished ∧ nextTurn s = .fillEngine) ∨
    (s.state = .finished ∧ t.state = .idle ∧ nextTurn s = .host)

/-- 20_memory.md R57, R60 and 60_exceptions.md R138: while the host waits, no step takes a call from the port or
touches the view, source memory or the configuration. -/
def Obligations.SessionShutsThePort : Prop :=
  ∀ s t : State, s.hostPh = .wait → step s = .next t →
    t.calls = s.calls ∧ t.srcMem = s.srcMem ∧ t.srcPtr = s.srcPtr ∧ t.srcLen = s.srcLen ∧ t.cfg = s.cfg ∧
    t.inited = s.inited ∧ t.halted = s.halted

/-- 20_memory.md R45: the block never writes source memory; what changes it is what the caller stored before a call, which
the model applies at the call's acceptance (log 5). -/
def Obligations.BlockNeverWritesSource : Prop :=
  ∀ s t : State, step s = .next t →
    t.srcMem = s.srcMem ∨
    (nextTurn s = .host ∧ s.hostPh = .ready ∧
      ∃ c rest, s.calls = c :: rest ∧ t.srcMem = storeCells s.cfg s.srcMem c.stores)

/-- R149: who may write what, agent by agent. The host, outside PLAY's arming, leaves the view, `CURSOR`, `FILL_HALF`
and the position, and takes `TPH` only to STOPPED, `STATE` only to Idle and `FILL_PEND` only to 0; PLAY's arming writes
the operands of the call it accepts, and zeros. Source memory moves with the caller's own stores (log 5); the bundle's
`n`, the calls, the schedule and the draw counter are the model's fields (logs 6 to 9). -/
def Obligations.AgentsWriteTheirOwn : Prop :=
  ∀ s t : State, step s = .next t →
    (nextTurn s = .host →
      t = { t with txbuf := s.txbuf, out := s.out, cfg := s.cfg, epoch := s.epoch } ∧
      ((t.srcPtr = s.srcPtr ∧ t.srcLen = s.srcLen ∧ t.cursor = s.cursor ∧ t.fillHalf = s.fillHalf ∧
          t.txHalf = s.txHalf ∧ t.txIdx = s.txIdx ∧ t.hsel = s.hsel ∧ t.frqN = s.frqN ∧
          (t.tph = s.tph ∨ t.tph = .stopped) ∧ (t.fillPend = s.fillPend ∨ t.fillPend = false) ∧
          (t.state = s.state ∨ t.state = .idle)) ∨
        ∃ c rest, s.calls = c :: rest ∧ decodeCmd s.cfg.addrW c.desc = .instr (.play t.srcPtr t.srcLen) ∧
          t.cursor = 0 ∧ t.fillHalf = 0 ∧ t.txHalf = 0 ∧ t.txIdx = 0 ∧ t.hsel = 0 ∧ t.tph = .priming ∧
          t.fillPend = true ∧ t.state = .playing ∧ t.ampEn = true ∧ t.hostPh = .wait)) ∧
    (nextTurn s = .fillEngine → t = { s with
        cursor := t.cursor, state := t.state, txbuf := t.txbuf, tph := t.tph, fillPend := t.fillPend,
        sched := t.sched, turns := t.turns } ∧
      (t.state = s.state ∨ t.state = .finishing ∨ t.state = .finished) ∧
      (t.tph = s.tph ∨ (s.tph = .priming ∧ t.tph = .streaming)) ∧
      (t.fillPend = s.fillPend ∨ t.fillPend = false)) ∧
    (nextTurn s = .transmitter → t = { s with
        fillPend := t.fillPend, fillHalf := t.fillHalf, frqN := t.frqN, txHalf := t.txHalf, txIdx := t.txIdx,
        hsel := t.hsel, out := t.out, sched := t.sched, turns := t.turns } ∧
      (t.fillPend = s.fillPend ∨ t.fillPend = true) ∧ (t.out = s.out ∨ ∃ h, t.out = s.out ++ [h]))

/-- R120: a pending fill and the transmitter are never in the same half, but at the edge where EMIT is an underrun. -/
def Obligations.FillAndEmitNeverShareHalf : Prop :=
  ∀ s t : State, BlockInv s → s.tph = .streaming → s.fillPend = true → emit s = .next t →
    ∀ i < s.blockWords, s.fillHalf.toNat * s.blockWords + i ≠ s.txHalf.toNat * s.blockWords + s.txIdx.toNat

/-- R174: under the invariants a run whose host has no command left and whose port is ready is over. -/
def Obligations.ReadyPortEndsRun : Prop :=
  ∀ s : State, BlockInv s → s.calls = [] → cmdReady s = true → RunOver s

/-- R174: under the invariants no state is a deadlock. -/
def Obligations.NoDeadlock : Prop := ∀ s : State, BlockInv s → ¬Deadlocked s

/-- 60_exceptions.md R137: from every state of a session that meets the invariants, some order of the agents' turns
ends the session; only an agent that never steps makes it hang. The given schedule is the model's (log 6). -/
def Obligations.SessionCanAlwaysEnd : Prop :=
  ∀ s : State, BlockInv s → s.hostPh = .wait →
    ∃ (given : List Turn) (t : State), Turn.reset ∉ given ∧
      Host.Core.run Sys2Proof.core given.length { s with sched := given ++ s.sched } = .next t ∧
      t.hostPh = .ready ∧ t.state = .idle ∧ t.ampEn = false ∧ t.sched = s.sched ∧ t.calls = s.calls

/-! ### What a session sends -/

/-- 42_transmitter.md R111, R121: a PLAY with a nonzero length, of a view that fits the address space and meets no
address with a read side effect, opens a session that has sent nothing. -/
def Obligations.PlayOpensSession : Prop :=
  ∀ (s : State) (addr : Addr) (len : Len), s.inited = true → len ≠ 0 →
    addr.toNat + len.toNat ≤ 2 ^ s.cfg.addrW →
    (∀ r ∈ s.cfg.sideEffects, ∀ x, addr.toNat ≤ x → x < addr.toNat + len.toNat →
      ¬(r.base ≤ x ∧ x < r.base + r.size)) →
    ∃ t, exec (.play addr len) s = .next t ∧ t.srcPtr = addr ∧ t.srcLen = len ∧ SessionAt s.out 0 0 t

/-- 42_transmitter.md R121: every step of a session keeps it one: what has been sent is a prefix of the sequence `S`,
for every order of the agents' turns, as long as no underrun has ended the run. -/
def Obligations.StepKeepsSession : Prop :=
  ∀ (before : List HalfWord) (s t : State), BlockInv s → InSession before s → step s = .next t → t.hostPh = .wait →
    InSession before t

/-- R122 (a) and (d), R85: when `STATE` is Finished the whole source has been sent, in order, followed by one or more
zero half-words, and both halves of `TXBUF` are silent. -/
def Obligations.FinishedMeansWholeSourceSent : Prop :=
  ∀ (before : List HalfWord) (s : State), BlockInv s → InSession before s → s.state = .finished →
    BothHalvesSilent s ∧
    ∃ zeros : Nat, 1 ≤ zeros ∧
      s.out = before ++ (List.range s.srcLen.toNat).map (fun k => widen (sourceByte s k)) ++ List.replicate zeros 0 ∧
      2 * s.blockWords * dataFills s.srcLen.toNat s.blockWords + 1 ≤ s.srcLen.toNat + zeros

/-- R122 (a): the FILL that sets Finished runs when between `2 B D + 1` and `2 B (D + 1)` half-words of the session
have been sent. -/
def Obligations.FinishedSetOnTime : Prop :=
  ∀ (before : List HalfWord) (s t : State), BlockInv s → InSession before s → s.state = .finishing →
    nextTurn s = .fillEngine → s.fillPend = true → step s = .next t →
    t.state = .finished ∧ BothHalvesSilent t ∧
    before.length + 2 * s.blockWords * dataFills s.srcLen.toNat s.blockWords + 1 ≤ t.out.length ∧
    t.out.length ≤ before.length + 2 * s.blockWords * (dataFills s.srcLen.toNat s.blockWords + 1)

/-- R123: from Finished to the completion step the transmitter goes on sending zeros and both halves stay silent. -/
def Obligations.FinishedStaysSilent : Prop :=
  ∀ (before : List HalfWord) (s t : State), BlockInv s → InSession before s → s.state = .finished → step s = .next t →
    t.hostPh = .wait →
    t.state = .finished ∧ BothHalvesSilent t ∧
      (t.out = s.out ∨ (nextTurn s = .transmitter ∧ t.out = s.out ++ [0]))

/-- 70_reset_and_hazards.md R170, 42_transmitter.md R129: no stale word reaches `OUT`, be it an earlier session's or
what reset left. The word an EMIT of a session reads is a listed one, and a listed word is one a FILL has written since
reset (the model's form, log 3); it is the very word of `S` that the position stands for, and the half-word sent is the
next one of `S`. -/
def Obligations.StaleWordsNeverSent : Prop :=
  ∀ (before : List HalfWord) (m : Nat) (s t : State), BlockInv s → InSession before s →
    s.out.length = before.length + m → s.tph = .streaming → emit s = .next t →
    cellRead s.txbuf (positionWord s) = some (streamWord s (m / 2)) ∧ t.out = s.out ++ [streamHalfWord s m]

/-! ### Source memory -/

/-- 20_memory.md R45 and R46: the byte at offset `k` of a view inside the address space is the byte of source memory
at `SRC_PTR + k`. -/
def Obligations.SourceByteReadsMemory : Prop :=
  ∀ (s : State) (k : Nat) (b : Byte), s.srcPtr.toNat + s.srcLen.toNat ≤ 2 ^ s.cfg.addrW → k < s.srcLen.toNat →
    cellRead s.srcMem (s.srcPtr.toNat + k) = some b → sourceByte s k = b

/-- 70_reset_and_hazards.md R161, 20_memory.md R60: once a call is accepted, source memory holds at each address the
last byte the caller stored there with the call (log 5), and elsewhere what it held. -/
def Obligations.AcceptedStoresAreInMemory : Prop :=
  ∀ (s t : State) (c : HostCall) (rest : List HostCall), nextTurn s = .host → s.hostPh = .ready → s.halted = false →
    s.calls = c :: rest → step s = .next t → ∀ a < 2 ^ s.cfg.addrW,
      cellRead t.srcMem a =
        ((c.stores.reverse.find? fun x => addrBits s.cfg x.1 == a).map Prod.snd).or (cellRead s.srcMem a)

/-- R161 and 41_fill_engine.md R94 to R96: a data fill packs the bytes that source memory holds at `SRC_PTR + CURSOR`:
where they are listed, word `j` of the block is the pack of the two bytes at `2 j` and `2 j + 1` past it, or of the
last byte of the view and a zero. -/
def Obligations.FillPacksListedBytes : Prop :=
  ∀ (s : State) (half : BitVec 1) (n : BitVec 16) (j : Nat) (b0 b1 : Byte), n.toNat ≤ s.blockWords →
    s.state = .playing → s.srcPtr.toNat + s.srcLen.toNat ≤ 2 ^ s.cfg.addrW → j < n.toNat →
    cellRead s.srcMem (s.srcPtr.toNat + s.cursor.toNat + 2 * j) = some b0 →
    ((s.cursor.toNat + 2 * j + 1 < s.srcLen.toNat ∧
        cellRead s.srcMem (s.srcPtr.toNat + s.cursor.toNat + 2 * j + 1) = some b1) ∨
      (s.cursor.toNat + 2 * j + 1 = s.srcLen.toNat ∧ b1 = 0)) →
    ∃ t, exec (.fill half n) s = .next t ∧ cellRead t.txbuf (half.toNat * s.blockWords + j) = some (pack b0 b1)
end

