-- ==== Sys2Proof/Laws/State.lean ====
section
/-! SUPPORT. One lemma per field per update of State, all true by rfl, so that no proof unfolds a record update. -/

namespace Sys2Proof.Machine

/-! ### txWrite -/

@[simp] theorem txWrite_srcPtr (s : State) (i : Nat) (v : Word) : (txWrite s i v).srcPtr = s.srcPtr := rfl
@[simp] theorem txWrite_srcLen (s : State) (i : Nat) (v : Word) : (txWrite s i v).srcLen = s.srcLen := rfl
@[simp] theorem txWrite_cursor (s : State) (i : Nat) (v : Word) : (txWrite s i v).cursor = s.cursor := rfl
@[simp] theorem txWrite_state (s : State) (i : Nat) (v : Word) : (txWrite s i v).state = s.state := rfl
@[simp] theorem txWrite_txbuf (s : State) (i : Nat) (v : Word) : (txWrite s i v).txbuf = cellWrite s.txbuf i v := rfl
@[simp] theorem txWrite_ampEn (s : State) (i : Nat) (v : Word) : (txWrite s i v).ampEn = s.ampEn := rfl
@[simp] theorem txWrite_inited (s : State) (i : Nat) (v : Word) : (txWrite s i v).inited = s.inited := rfl
@[simp] theorem txWrite_halted (s : State) (i : Nat) (v : Word) : (txWrite s i v).halted = s.halted := rfl
@[simp] theorem txWrite_hostPh (s : State) (i : Nat) (v : Word) : (txWrite s i v).hostPh = s.hostPh := rfl
@[simp] theorem txWrite_tph (s : State) (i : Nat) (v : Word) : (txWrite s i v).tph = s.tph := rfl
@[simp] theorem txWrite_fillPend (s : State) (i : Nat) (v : Word) : (txWrite s i v).fillPend = s.fillPend := rfl
@[simp] theorem txWrite_fillHalf (s : State) (i : Nat) (v : Word) : (txWrite s i v).fillHalf = s.fillHalf := rfl
@[simp] theorem txWrite_txHalf (s : State) (i : Nat) (v : Word) : (txWrite s i v).txHalf = s.txHalf := rfl
@[simp] theorem txWrite_txIdx (s : State) (i : Nat) (v : Word) : (txWrite s i v).txIdx = s.txIdx := rfl
@[simp] theorem txWrite_hsel (s : State) (i : Nat) (v : Word) : (txWrite s i v).hsel = s.hsel := rfl
@[simp] theorem txWrite_out (s : State) (i : Nat) (v : Word) : (txWrite s i v).out = s.out := rfl
@[simp] theorem txWrite_frqN (s : State) (i : Nat) (v : Word) : (txWrite s i v).frqN = s.frqN := rfl
@[simp] theorem txWrite_cfg (s : State) (i : Nat) (v : Word) : (txWrite s i v).cfg = s.cfg := rfl
@[simp] theorem txWrite_srcMem (s : State) (i : Nat) (v : Word) : (txWrite s i v).srcMem = s.srcMem := rfl
@[simp] theorem txWrite_calls (s : State) (i : Nat) (v : Word) : (txWrite s i v).calls = s.calls := rfl
@[simp] theorem txWrite_sched (s : State) (i : Nat) (v : Word) : (txWrite s i v).sched = s.sched := rfl
@[simp] theorem txWrite_turns (s : State) (i : Nat) (v : Word) : (txWrite s i v).turns = s.turns := rfl
@[simp] theorem txWrite_initDraws (s : State) (i : Nat) (v : Word) : (txWrite s i v).initDraws = s.initDraws := rfl
@[simp] theorem txWrite_epoch (s : State) (i : Nat) (v : Word) : (txWrite s i v).epoch = s.epoch := rfl
@[simp] theorem txWrite_blockWords (s : State) (i : Nat) (v : Word) : (txWrite s i v).blockWords = s.blockWords := rfl

/-! ### ampCfg -/

@[simp] theorem ampCfg_srcPtr (s : State) : (ampCfg s).srcPtr = s.srcPtr := rfl
@[simp] theorem ampCfg_srcLen (s : State) : (ampCfg s).srcLen = s.srcLen := rfl
@[simp] theorem ampCfg_cursor (s : State) : (ampCfg s).cursor = s.cursor := rfl
@[simp] theorem ampCfg_state (s : State) : (ampCfg s).state = s.state := rfl
@[simp] theorem ampCfg_txbuf (s : State) : (ampCfg s).txbuf = s.txbuf := rfl
@[simp] theorem ampCfg_ampEn (s : State) : (ampCfg s).ampEn = false := rfl
@[simp] theorem ampCfg_inited (s : State) : (ampCfg s).inited = s.inited := rfl
@[simp] theorem ampCfg_halted (s : State) : (ampCfg s).halted = s.halted := rfl
@[simp] theorem ampCfg_hostPh (s : State) : (ampCfg s).hostPh = s.hostPh := rfl
@[simp] theorem ampCfg_tph (s : State) : (ampCfg s).tph = s.tph := rfl
@[simp] theorem ampCfg_fillPend (s : State) : (ampCfg s).fillPend = s.fillPend := rfl
@[simp] theorem ampCfg_fillHalf (s : State) : (ampCfg s).fillHalf = s.fillHalf := rfl
@[simp] theorem ampCfg_txHalf (s : State) : (ampCfg s).txHalf = s.txHalf := rfl
@[simp] theorem ampCfg_txIdx (s : State) : (ampCfg s).txIdx = s.txIdx := rfl
@[simp] theorem ampCfg_hsel (s : State) : (ampCfg s).hsel = s.hsel := rfl
@[simp] theorem ampCfg_out (s : State) : (ampCfg s).out = s.out := rfl
@[simp] theorem ampCfg_frqN (s : State) : (ampCfg s).frqN = s.frqN := rfl
@[simp] theorem ampCfg_cfg (s : State) : (ampCfg s).cfg = s.cfg := rfl
@[simp] theorem ampCfg_srcMem (s : State) : (ampCfg s).srcMem = s.srcMem := rfl
@[simp] theorem ampCfg_calls (s : State) : (ampCfg s).calls = s.calls := rfl
@[simp] theorem ampCfg_sched (s : State) : (ampCfg s).sched = s.sched := rfl
@[simp] theorem ampCfg_turns (s : State) : (ampCfg s).turns = s.turns := rfl
@[simp] theorem ampCfg_initDraws (s : State) : (ampCfg s).initDraws = s.initDraws := rfl
@[simp] theorem ampCfg_epoch (s : State) : (ampCfg s).epoch = s.epoch := rfl
@[simp] theorem ampCfg_blockWords (s : State) : (ampCfg s).blockWords = s.blockWords := rfl

/-! ### ampSet -/

@[simp] theorem ampSet_srcPtr (s : State) : (ampSet s).srcPtr = s.srcPtr := rfl
@[simp] theorem ampSet_srcLen (s : State) : (ampSet s).srcLen = s.srcLen := rfl
@[simp] theorem ampSet_cursor (s : State) : (ampSet s).cursor = s.cursor := rfl
@[simp] theorem ampSet_state (s : State) : (ampSet s).state = s.state := rfl
@[simp] theorem ampSet_txbuf (s : State) : (ampSet s).txbuf = s.txbuf := rfl
@[simp] theorem ampSet_ampEn (s : State) : (ampSet s).ampEn = true := rfl
@[simp] theorem ampSet_inited (s : State) : (ampSet s).inited = s.inited := rfl
@[simp] theorem ampSet_halted (s : State) : (ampSet s).halted = s.halted := rfl
@[simp] theorem ampSet_hostPh (s : State) : (ampSet s).hostPh = s.hostPh := rfl
@[simp] theorem ampSet_tph (s : State) : (ampSet s).tph = s.tph := rfl
@[simp] theorem ampSet_fillPend (s : State) : (ampSet s).fillPend = s.fillPend := rfl
@[simp] theorem ampSet_fillHalf (s : State) : (ampSet s).fillHalf = s.fillHalf := rfl
@[simp] theorem ampSet_txHalf (s : State) : (ampSet s).txHalf = s.txHalf := rfl
@[simp] theorem ampSet_txIdx (s : State) : (ampSet s).txIdx = s.txIdx := rfl
@[simp] theorem ampSet_hsel (s : State) : (ampSet s).hsel = s.hsel := rfl
@[simp] theorem ampSet_out (s : State) : (ampSet s).out = s.out := rfl
@[simp] theorem ampSet_frqN (s : State) : (ampSet s).frqN = s.frqN := rfl
@[simp] theorem ampSet_cfg (s : State) : (ampSet s).cfg = s.cfg := rfl
@[simp] theorem ampSet_srcMem (s : State) : (ampSet s).srcMem = s.srcMem := rfl
@[simp] theorem ampSet_calls (s : State) : (ampSet s).calls = s.calls := rfl
@[simp] theorem ampSet_sched (s : State) : (ampSet s).sched = s.sched := rfl
@[simp] theorem ampSet_turns (s : State) : (ampSet s).turns = s.turns := rfl
@[simp] theorem ampSet_initDraws (s : State) : (ampSet s).initDraws = s.initDraws := rfl
@[simp] theorem ampSet_epoch (s : State) : (ampSet s).epoch = s.epoch := rfl
@[simp] theorem ampSet_blockWords (s : State) : (ampSet s).blockWords = s.blockWords := rfl

/-! ### ampClear -/

@[simp] theorem ampClear_srcPtr (s : State) : (ampClear s).srcPtr = s.srcPtr := rfl
@[simp] theorem ampClear_srcLen (s : State) : (ampClear s).srcLen = s.srcLen := rfl
@[simp] theorem ampClear_cursor (s : State) : (ampClear s).cursor = s.cursor := rfl
@[simp] theorem ampClear_state (s : State) : (ampClear s).state = s.state := rfl
@[simp] theorem ampClear_txbuf (s : State) : (ampClear s).txbuf = s.txbuf := rfl
@[simp] theorem ampClear_ampEn (s : State) : (ampClear s).ampEn = false := rfl
@[simp] theorem ampClear_inited (s : State) : (ampClear s).inited = s.inited := rfl
@[simp] theorem ampClear_halted (s : State) : (ampClear s).halted = s.halted := rfl
@[simp] theorem ampClear_hostPh (s : State) : (ampClear s).hostPh = s.hostPh := rfl
@[simp] theorem ampClear_tph (s : State) : (ampClear s).tph = s.tph := rfl
@[simp] theorem ampClear_fillPend (s : State) : (ampClear s).fillPend = s.fillPend := rfl
@[simp] theorem ampClear_fillHalf (s : State) : (ampClear s).fillHalf = s.fillHalf := rfl
@[simp] theorem ampClear_txHalf (s : State) : (ampClear s).txHalf = s.txHalf := rfl
@[simp] theorem ampClear_txIdx (s : State) : (ampClear s).txIdx = s.txIdx := rfl
@[simp] theorem ampClear_hsel (s : State) : (ampClear s).hsel = s.hsel := rfl
@[simp] theorem ampClear_out (s : State) : (ampClear s).out = s.out := rfl
@[simp] theorem ampClear_frqN (s : State) : (ampClear s).frqN = s.frqN := rfl
@[simp] theorem ampClear_cfg (s : State) : (ampClear s).cfg = s.cfg := rfl
@[simp] theorem ampClear_srcMem (s : State) : (ampClear s).srcMem = s.srcMem := rfl
@[simp] theorem ampClear_calls (s : State) : (ampClear s).calls = s.calls := rfl
@[simp] theorem ampClear_sched (s : State) : (ampClear s).sched = s.sched := rfl
@[simp] theorem ampClear_turns (s : State) : (ampClear s).turns = s.turns := rfl
@[simp] theorem ampClear_initDraws (s : State) : (ampClear s).initDraws = s.initDraws := rfl
@[simp] theorem ampClear_epoch (s : State) : (ampClear s).epoch = s.epoch := rfl
@[simp] theorem ampClear_blockWords (s : State) : (ampClear s).blockWords = s.blockWords := rfl

/-! ### tInit -/

@[simp] theorem tInit_srcPtr (s : State) : (tInit s).srcPtr = s.srcPtr := rfl
@[simp] theorem tInit_srcLen (s : State) : (tInit s).srcLen = s.srcLen := rfl
@[simp] theorem tInit_cursor (s : State) : (tInit s).cursor = s.cursor := rfl
@[simp] theorem tInit_state (s : State) : (tInit s).state = s.state := rfl
@[simp] theorem tInit_txbuf (s : State) : (tInit s).txbuf = s.txbuf := rfl
@[simp] theorem tInit_ampEn (s : State) : (tInit s).ampEn = s.ampEn := rfl
@[simp] theorem tInit_inited (s : State) : (tInit s).inited = s.inited := rfl
@[simp] theorem tInit_halted (s : State) : (tInit s).halted = s.halted := rfl
@[simp] theorem tInit_hostPh (s : State) : (tInit s).hostPh = s.hostPh := rfl
@[simp] theorem tInit_tph (s : State) : (tInit s).tph = .stopped := rfl
@[simp] theorem tInit_fillPend (s : State) : (tInit s).fillPend = false := rfl
@[simp] theorem tInit_fillHalf (s : State) : (tInit s).fillHalf = s.fillHalf := rfl
@[simp] theorem tInit_txHalf (s : State) : (tInit s).txHalf = s.txHalf := rfl
@[simp] theorem tInit_txIdx (s : State) : (tInit s).txIdx = s.txIdx := rfl
@[simp] theorem tInit_hsel (s : State) : (tInit s).hsel = s.hsel := rfl
@[simp] theorem tInit_out (s : State) : (tInit s).out = s.out := rfl
@[simp] theorem tInit_frqN (s : State) : (tInit s).frqN = s.frqN := rfl
@[simp] theorem tInit_cfg (s : State) : (tInit s).cfg = s.cfg := rfl
@[simp] theorem tInit_srcMem (s : State) : (tInit s).srcMem = s.srcMem := rfl
@[simp] theorem tInit_calls (s : State) : (tInit s).calls = s.calls := rfl
@[simp] theorem tInit_sched (s : State) : (tInit s).sched = s.sched := rfl
@[simp] theorem tInit_turns (s : State) : (tInit s).turns = s.turns := rfl
@[simp] theorem tInit_initDraws (s : State) : (tInit s).initDraws = s.initDraws := rfl
@[simp] theorem tInit_epoch (s : State) : (tInit s).epoch = s.epoch := rfl
@[simp] theorem tInit_blockWords (s : State) : (tInit s).blockWords = s.blockWords := rfl

/-! ### raiseRequest -/

@[simp] theorem raiseRequest_srcPtr (h : BitVec 1) (s : State) : (raiseRequest h s).srcPtr = s.srcPtr := rfl
@[simp] theorem raiseRequest_srcLen (h : BitVec 1) (s : State) : (raiseRequest h s).srcLen = s.srcLen := rfl
@[simp] theorem raiseRequest_cursor (h : BitVec 1) (s : State) : (raiseRequest h s).cursor = s.cursor := rfl
@[simp] theorem raiseRequest_state (h : BitVec 1) (s : State) : (raiseRequest h s).state = s.state := rfl
@[simp] theorem raiseRequest_txbuf (h : BitVec 1) (s : State) : (raiseRequest h s).txbuf = s.txbuf := rfl
@[simp] theorem raiseRequest_ampEn (h : BitVec 1) (s : State) : (raiseRequest h s).ampEn = s.ampEn := rfl
@[simp] theorem raiseRequest_inited (h : BitVec 1) (s : State) : (raiseRequest h s).inited = s.inited := rfl
@[simp] theorem raiseRequest_halted (h : BitVec 1) (s : State) : (raiseRequest h s).halted = s.halted := rfl
@[simp] theorem raiseRequest_hostPh (h : BitVec 1) (s : State) : (raiseRequest h s).hostPh = s.hostPh := rfl
@[simp] theorem raiseRequest_tph (h : BitVec 1) (s : State) : (raiseRequest h s).tph = s.tph := rfl
@[simp] theorem raiseRequest_fillPend (h : BitVec 1) (s : State) : (raiseRequest h s).fillPend = true := rfl
@[simp] theorem raiseRequest_fillHalf (h : BitVec 1) (s : State) : (raiseRequest h s).fillHalf = h := rfl
@[simp] theorem raiseRequest_txHalf (h : BitVec 1) (s : State) : (raiseRequest h s).txHalf = s.txHalf := rfl
@[simp] theorem raiseRequest_txIdx (h : BitVec 1) (s : State) : (raiseRequest h s).txIdx = s.txIdx := rfl
@[simp] theorem raiseRequest_hsel (h : BitVec 1) (s : State) : (raiseRequest h s).hsel = s.hsel := rfl
@[simp] theorem raiseRequest_out (h : BitVec 1) (s : State) : (raiseRequest h s).out = s.out := rfl
@[simp] theorem raiseRequest_frqN (h : BitVec 1) (s : State) : (raiseRequest h s).frqN = BitVec.ofNat 16 s.blockWords := rfl
@[simp] theorem raiseRequest_cfg (h : BitVec 1) (s : State) : (raiseRequest h s).cfg = s.cfg := rfl
@[simp] theorem raiseRequest_srcMem (h : BitVec 1) (s : State) : (raiseRequest h s).srcMem = s.srcMem := rfl
@[simp] theorem raiseRequest_calls (h : BitVec 1) (s : State) : (raiseRequest h s).calls = s.calls := rfl
@[simp] theorem raiseRequest_sched (h : BitVec 1) (s : State) : (raiseRequest h s).sched = s.sched := rfl
@[simp] theorem raiseRequest_turns (h : BitVec 1) (s : State) : (raiseRequest h s).turns = s.turns := rfl
@[simp] theorem raiseRequest_initDraws (h : BitVec 1) (s : State) : (raiseRequest h s).initDraws = s.initDraws := rfl
@[simp] theorem raiseRequest_epoch (h : BitVec 1) (s : State) : (raiseRequest h s).epoch = s.epoch := rfl
@[simp] theorem raiseRequest_blockWords (h : BitVec 1) (s : State) : (raiseRequest h s).blockWords = s.blockWords := rfl

/-! ### tStart -/

@[simp] theorem tStart_srcPtr (s : State) : (tStart s).srcPtr = s.srcPtr := rfl
@[simp] theorem tStart_srcLen (s : State) : (tStart s).srcLen = s.srcLen := rfl
@[simp] theorem tStart_cursor (s : State) : (tStart s).cursor = s.cursor := rfl
@[simp] theorem tStart_state (s : State) : (tStart s).state = s.state := rfl
@[simp] theorem tStart_txbuf (s : State) : (tStart s).txbuf = s.txbuf := rfl
@[simp] theorem tStart_ampEn (s : State) : (tStart s).ampEn = s.ampEn := rfl
@[simp] theorem tStart_inited (s : State) : (tStart s).inited = s.inited := rfl
@[simp] theorem tStart_halted (s : State) : (tStart s).halted = s.halted := rfl
@[simp] theorem tStart_hostPh (s : State) : (tStart s).hostPh = s.hostPh := rfl
@[simp] theorem tStart_tph (s : State) : (tStart s).tph = .priming := rfl
@[simp] theorem tStart_fillPend (s : State) : (tStart s).fillPend = true := rfl
@[simp] theorem tStart_fillHalf (s : State) : (tStart s).fillHalf = 0 := rfl
@[simp] theorem tStart_txHalf (s : State) : (tStart s).txHalf = 0 := rfl
@[simp] theorem tStart_txIdx (s : State) : (tStart s).txIdx = 0 := rfl
@[simp] theorem tStart_hsel (s : State) : (tStart s).hsel = 0 := rfl
@[simp] theorem tStart_out (s : State) : (tStart s).out = s.out := rfl
@[simp] theorem tStart_frqN (s : State) : (tStart s).frqN = BitVec.ofNat 16 s.blockWords := rfl
@[simp] theorem tStart_cfg (s : State) : (tStart s).cfg = s.cfg := rfl
@[simp] theorem tStart_srcMem (s : State) : (tStart s).srcMem = s.srcMem := rfl
@[simp] theorem tStart_calls (s : State) : (tStart s).calls = s.calls := rfl
@[simp] theorem tStart_sched (s : State) : (tStart s).sched = s.sched := rfl
@[simp] theorem tStart_turns (s : State) : (tStart s).turns = s.turns := rfl
@[simp] theorem tStart_initDraws (s : State) : (tStart s).initDraws = s.initDraws := rfl
@[simp] theorem tStart_epoch (s : State) : (tStart s).epoch = s.epoch := rfl
@[simp] theorem tStart_blockWords (s : State) : (tStart s).blockWords = s.blockWords := rfl

/-! ### tStop -/

@[simp] theorem tStop_srcPtr (s : State) : (tStop s).srcPtr = s.srcPtr := rfl
@[simp] theorem tStop_srcLen (s : State) : (tStop s).srcLen = s.srcLen := rfl
@[simp] theorem tStop_cursor (s : State) : (tStop s).cursor = s.cursor := rfl
@[simp] theorem tStop_state (s : State) : (tStop s).state = s.state := rfl
@[simp] theorem tStop_txbuf (s : State) : (tStop s).txbuf = s.txbuf := rfl
@[simp] theorem tStop_ampEn (s : State) : (tStop s).ampEn = s.ampEn := rfl
@[simp] theorem tStop_inited (s : State) : (tStop s).inited = s.inited := rfl
@[simp] theorem tStop_halted (s : State) : (tStop s).halted = s.halted := rfl
@[simp] theorem tStop_hostPh (s : State) : (tStop s).hostPh = s.hostPh := rfl
@[simp] theorem tStop_tph (s : State) : (tStop s).tph = .stopped := rfl
@[simp] theorem tStop_fillPend (s : State) : (tStop s).fillPend = false := rfl
@[simp] theorem tStop_fillHalf (s : State) : (tStop s).fillHalf = s.fillHalf := rfl
@[simp] theorem tStop_txHalf (s : State) : (tStop s).txHalf = s.txHalf := rfl
@[simp] theorem tStop_txIdx (s : State) : (tStop s).txIdx = s.txIdx := rfl
@[simp] theorem tStop_hsel (s : State) : (tStop s).hsel = s.hsel := rfl
@[simp] theorem tStop_out (s : State) : (tStop s).out = s.out := rfl
@[simp] theorem tStop_frqN (s : State) : (tStop s).frqN = s.frqN := rfl
@[simp] theorem tStop_cfg (s : State) : (tStop s).cfg = s.cfg := rfl
@[simp] theorem tStop_srcMem (s : State) : (tStop s).srcMem = s.srcMem := rfl
@[simp] theorem tStop_calls (s : State) : (tStop s).calls = s.calls := rfl
@[simp] theorem tStop_sched (s : State) : (tStop s).sched = s.sched := rfl
@[simp] theorem tStop_turns (s : State) : (tStop s).turns = s.turns := rfl
@[simp] theorem tStop_initDraws (s : State) : (tStop s).initDraws = s.initDraws := rfl
@[simp] theorem tStop_epoch (s : State) : (tStop s).epoch = s.epoch := rfl
@[simp] theorem tStop_blockWords (s : State) : (tStop s).blockWords = s.blockWords := rfl

/-! ### haltPlayback -/

@[simp] theorem haltPlayback_srcPtr (s : State) : (haltPlayback s).srcPtr = s.srcPtr := rfl
@[simp] theorem haltPlayback_srcLen (s : State) : (haltPlayback s).srcLen = s.srcLen := rfl
@[simp] theorem haltPlayback_cursor (s : State) : (haltPlayback s).cursor = s.cursor := rfl
@[simp] theorem haltPlayback_state (s : State) : (haltPlayback s).state = .idle := rfl
@[simp] theorem haltPlayback_txbuf (s : State) : (haltPlayback s).txbuf = s.txbuf := rfl
@[simp] theorem haltPlayback_ampEn (s : State) : (haltPlayback s).ampEn = false := rfl
@[simp] theorem haltPlayback_inited (s : State) : (haltPlayback s).inited = s.inited := rfl
@[simp] theorem haltPlayback_halted (s : State) : (haltPlayback s).halted = s.halted := rfl
@[simp] theorem haltPlayback_hostPh (s : State) : (haltPlayback s).hostPh = s.hostPh := rfl
@[simp] theorem haltPlayback_tph (s : State) : (haltPlayback s).tph = .stopped := rfl
@[simp] theorem haltPlayback_fillPend (s : State) : (haltPlayback s).fillPend = false := rfl
@[simp] theorem haltPlayback_fillHalf (s : State) : (haltPlayback s).fillHalf = s.fillHalf := rfl
@[simp] theorem haltPlayback_txHalf (s : State) : (haltPlayback s).txHalf = s.txHalf := rfl
@[simp] theorem haltPlayback_txIdx (s : State) : (haltPlayback s).txIdx = s.txIdx := rfl
@[simp] theorem haltPlayback_hsel (s : State) : (haltPlayback s).hsel = s.hsel := rfl
@[simp] theorem haltPlayback_out (s : State) : (haltPlayback s).out = s.out := rfl
@[simp] theorem haltPlayback_frqN (s : State) : (haltPlayback s).frqN = s.frqN := rfl
@[simp] theorem haltPlayback_cfg (s : State) : (haltPlayback s).cfg = s.cfg := rfl
@[simp] theorem haltPlayback_srcMem (s : State) : (haltPlayback s).srcMem = s.srcMem := rfl
@[simp] theorem haltPlayback_calls (s : State) : (haltPlayback s).calls = s.calls := rfl
@[simp] theorem haltPlayback_sched (s : State) : (haltPlayback s).sched = s.sched := rfl
@[simp] theorem haltPlayback_turns (s : State) : (haltPlayback s).turns = s.turns := rfl
@[simp] theorem haltPlayback_initDraws (s : State) : (haltPlayback s).initDraws = s.initDraws := rfl
@[simp] theorem haltPlayback_epoch (s : State) : (haltPlayback s).epoch = s.epoch := rfl
@[simp] theorem haltPlayback_blockWords (s : State) : (haltPlayback s).blockWords = s.blockWords := rfl

/-! ### completePlay -/

@[simp] theorem completePlay_srcPtr (s : State) : (completePlay s).srcPtr = s.srcPtr := rfl
@[simp] theorem completePlay_srcLen (s : State) : (completePlay s).srcLen = s.srcLen := rfl
@[simp] theorem completePlay_cursor (s : State) : (completePlay s).cursor = s.cursor := rfl
@[simp] theorem completePlay_state (s : State) : (completePlay s).state = .idle := rfl
@[simp] theorem completePlay_txbuf (s : State) : (completePlay s).txbuf = s.txbuf := rfl
@[simp] theorem completePlay_ampEn (s : State) : (completePlay s).ampEn = false := rfl
@[simp] theorem completePlay_inited (s : State) : (completePlay s).inited = s.inited := rfl
@[simp] theorem completePlay_halted (s : State) : (completePlay s).halted = s.halted := rfl
@[simp] theorem completePlay_hostPh (s : State) : (completePlay s).hostPh = .ready := rfl
@[simp] theorem completePlay_tph (s : State) : (completePlay s).tph = .stopped := rfl
@[simp] theorem completePlay_fillPend (s : State) : (completePlay s).fillPend = false := rfl
@[simp] theorem completePlay_fillHalf (s : State) : (completePlay s).fillHalf = s.fillHalf := rfl
@[simp] theorem completePlay_txHalf (s : State) : (completePlay s).txHalf = s.txHalf := rfl
@[simp] theorem completePlay_txIdx (s : State) : (completePlay s).txIdx = s.txIdx := rfl
@[simp] theorem completePlay_hsel (s : State) : (completePlay s).hsel = s.hsel := rfl
@[simp] theorem completePlay_out (s : State) : (completePlay s).out = s.out := rfl
@[simp] theorem completePlay_frqN (s : State) : (completePlay s).frqN = s.frqN := rfl
@[simp] theorem completePlay_cfg (s : State) : (completePlay s).cfg = s.cfg := rfl
@[simp] theorem completePlay_srcMem (s : State) : (completePlay s).srcMem = s.srcMem := rfl
@[simp] theorem completePlay_calls (s : State) : (completePlay s).calls = s.calls := rfl
@[simp] theorem completePlay_sched (s : State) : (completePlay s).sched = s.sched := rfl
@[simp] theorem completePlay_turns (s : State) : (completePlay s).turns = s.turns := rfl
@[simp] theorem completePlay_initDraws (s : State) : (completePlay s).initDraws = s.initDraws := rfl
@[simp] theorem completePlay_epoch (s : State) : (completePlay s).epoch = s.epoch := rfl
@[simp] theorem completePlay_blockWords (s : State) : (completePlay s).blockWords = s.blockWords := rfl

/-! ### armPlay -/

@[simp] theorem armPlay_srcPtr (a : Addr) (l : Len) (s : State) : (armPlay a l s).srcPtr = a := rfl
@[simp] theorem armPlay_srcLen (a : Addr) (l : Len) (s : State) : (armPlay a l s).srcLen = l := rfl
@[simp] theorem armPlay_cursor (a : Addr) (l : Len) (s : State) : (armPlay a l s).cursor = 0 := rfl
@[simp] theorem armPlay_state (a : Addr) (l : Len) (s : State) : (armPlay a l s).state = .playing := rfl
@[simp] theorem armPlay_txbuf (a : Addr) (l : Len) (s : State) : (armPlay a l s).txbuf = s.txbuf := rfl
@[simp] theorem armPlay_ampEn (a : Addr) (l : Len) (s : State) : (armPlay a l s).ampEn = true := rfl
@[simp] theorem armPlay_inited (a : Addr) (l : Len) (s : State) : (armPlay a l s).inited = s.inited := rfl
@[simp] theorem armPlay_halted (a : Addr) (l : Len) (s : State) : (armPlay a l s).halted = s.halted := rfl
@[simp] theorem armPlay_hostPh (a : Addr) (l : Len) (s : State) : (armPlay a l s).hostPh = .wait := rfl
@[simp] theorem armPlay_tph (a : Addr) (l : Len) (s : State) : (armPlay a l s).tph = .priming := rfl
@[simp] theorem armPlay_fillPend (a : Addr) (l : Len) (s : State) : (armPlay a l s).fillPend = true := rfl
@[simp] theorem armPlay_fillHalf (a : Addr) (l : Len) (s : State) : (armPlay a l s).fillHalf = 0 := rfl
@[simp] theorem armPlay_txHalf (a : Addr) (l : Len) (s : State) : (armPlay a l s).txHalf = 0 := rfl
@[simp] theorem armPlay_txIdx (a : Addr) (l : Len) (s : State) : (armPlay a l s).txIdx = 0 := rfl
@[simp] theorem armPlay_hsel (a : Addr) (l : Len) (s : State) : (armPlay a l s).hsel = 0 := rfl
@[simp] theorem armPlay_out (a : Addr) (l : Len) (s : State) : (armPlay a l s).out = s.out := rfl
@[simp] theorem armPlay_frqN (a : Addr) (l : Len) (s : State) : (armPlay a l s).frqN = BitVec.ofNat 16 s.blockWords := rfl
@[simp] theorem armPlay_cfg (a : Addr) (l : Len) (s : State) : (armPlay a l s).cfg = s.cfg := rfl
@[simp] theorem armPlay_srcMem (a : Addr) (l : Len) (s : State) : (armPlay a l s).srcMem = s.srcMem := rfl
@[simp] theorem armPlay_calls (a : Addr) (l : Len) (s : State) : (armPlay a l s).calls = s.calls := rfl
@[simp] theorem armPlay_sched (a : Addr) (l : Len) (s : State) : (armPlay a l s).sched = s.sched := rfl
@[simp] theorem armPlay_turns (a : Addr) (l : Len) (s : State) : (armPlay a l s).turns = s.turns := rfl
@[simp] theorem armPlay_initDraws (a : Addr) (l : Len) (s : State) : (armPlay a l s).initDraws = s.initDraws := rfl
@[simp] theorem armPlay_epoch (a : Addr) (l : Len) (s : State) : (armPlay a l s).epoch = s.epoch := rfl
@[simp] theorem armPlay_blockWords (a : Addr) (l : Len) (s : State) : (armPlay a l s).blockWords = s.blockWords := rfl

/-! ### takeInitFatal -/

@[simp] theorem takeInitFatal_srcPtr (s : State) : (takeInitFatal s).srcPtr = s.srcPtr := rfl
@[simp] theorem takeInitFatal_srcLen (s : State) : (takeInitFatal s).srcLen = s.srcLen := rfl
@[simp] theorem takeInitFatal_cursor (s : State) : (takeInitFatal s).cursor = s.cursor := rfl
@[simp] theorem takeInitFatal_state (s : State) : (takeInitFatal s).state = s.state := rfl
@[simp] theorem takeInitFatal_txbuf (s : State) : (takeInitFatal s).txbuf = s.txbuf := rfl
@[simp] theorem takeInitFatal_ampEn (s : State) : (takeInitFatal s).ampEn = s.ampEn := rfl
@[simp] theorem takeInitFatal_inited (s : State) : (takeInitFatal s).inited = s.inited := rfl
@[simp] theorem takeInitFatal_halted (s : State) : (takeInitFatal s).halted = true := rfl
@[simp] theorem takeInitFatal_hostPh (s : State) : (takeInitFatal s).hostPh = s.hostPh := rfl
@[simp] theorem takeInitFatal_tph (s : State) : (takeInitFatal s).tph = s.tph := rfl
@[simp] theorem takeInitFatal_fillPend (s : State) : (takeInitFatal s).fillPend = s.fillPend := rfl
@[simp] theorem takeInitFatal_fillHalf (s : State) : (takeInitFatal s).fillHalf = s.fillHalf := rfl
@[simp] theorem takeInitFatal_txHalf (s : State) : (takeInitFatal s).txHalf = s.txHalf := rfl
@[simp] theorem takeInitFatal_txIdx (s : State) : (takeInitFatal s).txIdx = s.txIdx := rfl
@[simp] theorem takeInitFatal_hsel (s : State) : (takeInitFatal s).hsel = s.hsel := rfl
@[simp] theorem takeInitFatal_out (s : State) : (takeInitFatal s).out = s.out := rfl
@[simp] theorem takeInitFatal_frqN (s : State) : (takeInitFatal s).frqN = s.frqN := rfl
@[simp] theorem takeInitFatal_cfg (s : State) : (takeInitFatal s).cfg = s.cfg := rfl
@[simp] theorem takeInitFatal_srcMem (s : State) : (takeInitFatal s).srcMem = s.srcMem := rfl
@[simp] theorem takeInitFatal_calls (s : State) : (takeInitFatal s).calls = s.calls := rfl
@[simp] theorem takeInitFatal_sched (s : State) : (takeInitFatal s).sched = s.sched := rfl
@[simp] theorem takeInitFatal_turns (s : State) : (takeInitFatal s).turns = s.turns := rfl
@[simp] theorem takeInitFatal_initDraws (s : State) : (takeInitFatal s).initDraws = s.initDraws := rfl
@[simp] theorem takeInitFatal_epoch (s : State) : (takeInitFatal s).epoch = s.epoch := rfl
@[simp] theorem takeInitFatal_blockWords (s : State) : (takeInitFatal s).blockWords = s.blockWords := rfl

/-! ### endFill -/

@[simp] theorem endFill_srcPtr (s : State) : (endFill s).srcPtr = s.srcPtr := rfl
@[simp] theorem endFill_srcLen (s : State) : (endFill s).srcLen = s.srcLen := rfl
@[simp] theorem endFill_cursor (s : State) : (endFill s).cursor = s.cursor := rfl
@[simp] theorem endFill_state (s : State) : (endFill s).state = s.state := rfl
@[simp] theorem endFill_txbuf (s : State) : (endFill s).txbuf = s.txbuf := rfl
@[simp] theorem endFill_ampEn (s : State) : (endFill s).ampEn = s.ampEn := rfl
@[simp] theorem endFill_inited (s : State) : (endFill s).inited = s.inited := rfl
@[simp] theorem endFill_halted (s : State) : (endFill s).halted = s.halted := rfl
@[simp] theorem endFill_hostPh (s : State) : (endFill s).hostPh = s.hostPh := rfl
@[simp] theorem endFill_tph (s : State) : (endFill s).tph = if s.tph = .priming then .streaming else s.tph := rfl
@[simp] theorem endFill_fillPend (s : State) : (endFill s).fillPend = false := rfl
@[simp] theorem endFill_fillHalf (s : State) : (endFill s).fillHalf = s.fillHalf := rfl
@[simp] theorem endFill_txHalf (s : State) : (endFill s).txHalf = s.txHalf := rfl
@[simp] theorem endFill_txIdx (s : State) : (endFill s).txIdx = s.txIdx := rfl
@[simp] theorem endFill_hsel (s : State) : (endFill s).hsel = s.hsel := rfl
@[simp] theorem endFill_out (s : State) : (endFill s).out = s.out := rfl
@[simp] theorem endFill_frqN (s : State) : (endFill s).frqN = s.frqN := rfl
@[simp] theorem endFill_cfg (s : State) : (endFill s).cfg = s.cfg := rfl
@[simp] theorem endFill_srcMem (s : State) : (endFill s).srcMem = s.srcMem := rfl
@[simp] theorem endFill_calls (s : State) : (endFill s).calls = s.calls := rfl
@[simp] theorem endFill_sched (s : State) : (endFill s).sched = s.sched := rfl
@[simp] theorem endFill_turns (s : State) : (endFill s).turns = s.turns := rfl
@[simp] theorem endFill_initDraws (s : State) : (endFill s).initDraws = s.initDraws := rfl
@[simp] theorem endFill_epoch (s : State) : (endFill s).epoch = s.epoch := rfl
@[simp] theorem endFill_blockWords (s : State) : (endFill s).blockWords = s.blockWords := rfl

/-! ### applyReset -/

@[simp] theorem applyReset_srcPtr (s : State) : (applyReset s).srcPtr = 0 := rfl
@[simp] theorem applyReset_srcLen (s : State) : (applyReset s).srcLen = 0 := rfl
@[simp] theorem applyReset_cursor (s : State) : (applyReset s).cursor = 0 := rfl
@[simp] theorem applyReset_state (s : State) : (applyReset s).state = .idle := rfl
@[simp] theorem applyReset_txbuf (s : State) : (applyReset s).txbuf = [] := rfl
@[simp] theorem applyReset_ampEn (s : State) : (applyReset s).ampEn = false := rfl
@[simp] theorem applyReset_inited (s : State) : (applyReset s).inited = false := rfl
@[simp] theorem applyReset_halted (s : State) : (applyReset s).halted = false := rfl
@[simp] theorem applyReset_hostPh (s : State) : (applyReset s).hostPh = .ready := rfl
@[simp] theorem applyReset_tph (s : State) : (applyReset s).tph = .stopped := rfl
@[simp] theorem applyReset_fillPend (s : State) : (applyReset s).fillPend = false := rfl
@[simp] theorem applyReset_fillHalf (s : State) : (applyReset s).fillHalf = 0 := rfl
@[simp] theorem applyReset_txHalf (s : State) : (applyReset s).txHalf = 0 := rfl
@[simp] theorem applyReset_txIdx (s : State) : (applyReset s).txIdx = 0 := rfl
@[simp] theorem applyReset_hsel (s : State) : (applyReset s).hsel = 0 := rfl
@[simp] theorem applyReset_out (s : State) : (applyReset s).out = [] := rfl
@[simp] theorem applyReset_frqN (s : State) : (applyReset s).frqN = BitVec.ofNat 16 s.blockWords := rfl
@[simp] theorem applyReset_cfg (s : State) : (applyReset s).cfg = s.cfg := rfl
@[simp] theorem applyReset_srcMem (s : State) : (applyReset s).srcMem = s.srcMem := rfl
@[simp] theorem applyReset_calls (s : State) : (applyReset s).calls = s.calls := rfl
@[simp] theorem applyReset_sched (s : State) : (applyReset s).sched = s.sched := rfl
@[simp] theorem applyReset_turns (s : State) : (applyReset s).turns = s.turns := rfl
@[simp] theorem applyReset_initDraws (s : State) : (applyReset s).initDraws = s.initDraws := rfl
@[simp] theorem applyReset_epoch (s : State) : (applyReset s).epoch = s.epoch + 1 := rfl
@[simp] theorem applyReset_blockWords (s : State) : (applyReset s).blockWords = s.blockWords := rfl

/-! ### takeTurn -/

@[simp] theorem takeTurn_srcPtr (s : State) : (takeTurn s).srcPtr = s.srcPtr := rfl
@[simp] theorem takeTurn_srcLen (s : State) : (takeTurn s).srcLen = s.srcLen := rfl
@[simp] theorem takeTurn_cursor (s : State) : (takeTurn s).cursor = s.cursor := rfl
@[simp] theorem takeTurn_state (s : State) : (takeTurn s).state = s.state := rfl
@[simp] theorem takeTurn_txbuf (s : State) : (takeTurn s).txbuf = s.txbuf := rfl
@[simp] theorem takeTurn_ampEn (s : State) : (takeTurn s).ampEn = s.ampEn := rfl
@[simp] theorem takeTurn_inited (s : State) : (takeTurn s).inited = s.inited := rfl
@[simp] theorem takeTurn_halted (s : State) : (takeTurn s).halted = s.halted := rfl
@[simp] theorem takeTurn_hostPh (s : State) : (takeTurn s).hostPh = s.hostPh := rfl
@[simp] theorem takeTurn_tph (s : State) : (takeTurn s).tph = s.tph := rfl
@[simp] theorem takeTurn_fillPend (s : State) : (takeTurn s).fillPend = s.fillPend := rfl
@[simp] theorem takeTurn_fillHalf (s : State) : (takeTurn s).fillHalf = s.fillHalf := rfl
@[simp] theorem takeTurn_txHalf (s : State) : (takeTurn s).txHalf = s.txHalf := rfl
@[simp] theorem takeTurn_txIdx (s : State) : (takeTurn s).txIdx = s.txIdx := rfl
@[simp] theorem takeTurn_hsel (s : State) : (takeTurn s).hsel = s.hsel := rfl
@[simp] theorem takeTurn_out (s : State) : (takeTurn s).out = s.out := rfl
@[simp] theorem takeTurn_frqN (s : State) : (takeTurn s).frqN = s.frqN := rfl
@[simp] theorem takeTurn_cfg (s : State) : (takeTurn s).cfg = s.cfg := rfl
@[simp] theorem takeTurn_srcMem (s : State) : (takeTurn s).srcMem = s.srcMem := rfl
@[simp] theorem takeTurn_calls (s : State) : (takeTurn s).calls = s.calls := rfl
@[simp] theorem takeTurn_sched (s : State) : (takeTurn s).sched = s.sched.tail := rfl
@[simp] theorem takeTurn_turns (s : State) : (takeTurn s).turns = s.turns + 1 := rfl
@[simp] theorem takeTurn_initDraws (s : State) : (takeTurn s).initDraws = s.initDraws := rfl
@[simp] theorem takeTurn_epoch (s : State) : (takeTurn s).epoch = s.epoch := rfl
@[simp] theorem takeTurn_blockWords (s : State) : (takeTurn s).blockWords = s.blockWords := rfl

/-! ### latchCall -/

@[simp] theorem latchCall_srcPtr (c : HostCall) (r : List HostCall) (s : State) : (latchCall c r s).srcPtr = s.srcPtr := rfl
@[simp] theorem latchCall_srcLen (c : HostCall) (r : List HostCall) (s : State) : (latchCall c r s).srcLen = s.srcLen := rfl
@[simp] theorem latchCall_cursor (c : HostCall) (r : List HostCall) (s : State) : (latchCall c r s).cursor = s.cursor := rfl
@[simp] theorem latchCall_state (c : HostCall) (r : List HostCall) (s : State) : (latchCall c r s).state = s.state := rfl
@[simp] theorem latchCall_txbuf (c : HostCall) (r : List HostCall) (s : State) : (latchCall c r s).txbuf = s.txbuf := rfl
@[simp] theorem latchCall_ampEn (c : HostCall) (r : List HostCall) (s : State) : (latchCall c r s).ampEn = s.ampEn := rfl
@[simp] theorem latchCall_inited (c : HostCall) (r : List HostCall) (s : State) : (latchCall c r s).inited = s.inited := rfl
@[simp] theorem latchCall_halted (c : HostCall) (r : List HostCall) (s : State) : (latchCall c r s).halted = s.halted := rfl
@[simp] theorem latchCall_hostPh (c : HostCall) (r : List HostCall) (s : State) : (latchCall c r s).hostPh = s.hostPh := rfl
@[simp] theorem latchCall_tph (c : HostCall) (r : List HostCall) (s : State) : (latchCall c r s).tph = s.tph := rfl
@[simp] theorem latchCall_fillPend (c : HostCall) (r : List HostCall) (s : State) : (latchCall c r s).fillPend = s.fillPend := rfl
@[simp] theorem latchCall_fillHalf (c : HostCall) (r : List HostCall) (s : State) : (latchCall c r s).fillHalf = s.fillHalf := rfl
@[simp] theorem latchCall_txHalf (c : HostCall) (r : List HostCall) (s : State) : (latchCall c r s).txHalf = s.txHalf := rfl
@[simp] theorem latchCall_txIdx (c : HostCall) (r : List HostCall) (s : State) : (latchCall c r s).txIdx = s.txIdx := rfl
@[simp] theorem latchCall_hsel (c : HostCall) (r : List HostCall) (s : State) : (latchCall c r s).hsel = s.hsel := rfl
@[simp] theorem latchCall_out (c : HostCall) (r : List HostCall) (s : State) : (latchCall c r s).out = s.out := rfl
@[simp] theorem latchCall_frqN (c : HostCall) (r : List HostCall) (s : State) : (latchCall c r s).frqN = s.frqN := rfl
@[simp] theorem latchCall_cfg (c : HostCall) (r : List HostCall) (s : State) : (latchCall c r s).cfg = s.cfg := rfl
@[simp] theorem latchCall_srcMem (c : HostCall) (r : List HostCall) (s : State) : (latchCall c r s).srcMem = storeCells s.cfg s.srcMem c.stores := rfl
@[simp] theorem latchCall_calls (c : HostCall) (r : List HostCall) (s : State) : (latchCall c r s).calls = r := rfl
@[simp] theorem latchCall_sched (c : HostCall) (r : List HostCall) (s : State) : (latchCall c r s).sched = s.sched := rfl
@[simp] theorem latchCall_turns (c : HostCall) (r : List HostCall) (s : State) : (latchCall c r s).turns = s.turns := rfl
@[simp] theorem latchCall_initDraws (c : HostCall) (r : List HostCall) (s : State) : (latchCall c r s).initDraws = s.initDraws := rfl
@[simp] theorem latchCall_epoch (c : HostCall) (r : List HostCall) (s : State) : (latchCall c r s).epoch = s.epoch := rfl
@[simp] theorem latchCall_blockWords (c : HostCall) (r : List HostCall) (s : State) : (latchCall c r s).blockWords = s.blockWords := rfl

/-! ### fillSlot -/

@[simp] theorem fillSlot_srcPtr (w : Nat) (s : State) : (fillSlot w s).srcPtr = s.srcPtr := rfl
@[simp] theorem fillSlot_srcLen (w : Nat) (s : State) : (fillSlot w s).srcLen = s.srcLen := rfl
@[simp] theorem fillSlot_cursor (w : Nat) (s : State) : (fillSlot w s).cursor = advanceCursor s.cursor s.srcLen := rfl
@[simp] theorem fillSlot_state (w : Nat) (s : State) : (fillSlot w s).state = s.state := rfl
@[simp] theorem fillSlot_ampEn (w : Nat) (s : State) : (fillSlot w s).ampEn = s.ampEn := rfl
@[simp] theorem fillSlot_inited (w : Nat) (s : State) : (fillSlot w s).inited = s.inited := rfl
@[simp] theorem fillSlot_halted (w : Nat) (s : State) : (fillSlot w s).halted = s.halted := rfl
@[simp] theorem fillSlot_hostPh (w : Nat) (s : State) : (fillSlot w s).hostPh = s.hostPh := rfl
@[simp] theorem fillSlot_tph (w : Nat) (s : State) : (fillSlot w s).tph = s.tph := rfl
@[simp] theorem fillSlot_fillPend (w : Nat) (s : State) : (fillSlot w s).fillPend = s.fillPend := rfl
@[simp] theorem fillSlot_fillHalf (w : Nat) (s : State) : (fillSlot w s).fillHalf = s.fillHalf := rfl
@[simp] theorem fillSlot_txHalf (w : Nat) (s : State) : (fillSlot w s).txHalf = s.txHalf := rfl
@[simp] theorem fillSlot_txIdx (w : Nat) (s : State) : (fillSlot w s).txIdx = s.txIdx := rfl
@[simp] theorem fillSlot_hsel (w : Nat) (s : State) : (fillSlot w s).hsel = s.hsel := rfl
@[simp] theorem fillSlot_out (w : Nat) (s : State) : (fillSlot w s).out = s.out := rfl
@[simp] theorem fillSlot_frqN (w : Nat) (s : State) : (fillSlot w s).frqN = s.frqN := rfl
@[simp] theorem fillSlot_cfg (w : Nat) (s : State) : (fillSlot w s).cfg = s.cfg := rfl
@[simp] theorem fillSlot_srcMem (w : Nat) (s : State) : (fillSlot w s).srcMem = s.srcMem := rfl
@[simp] theorem fillSlot_calls (w : Nat) (s : State) : (fillSlot w s).calls = s.calls := rfl
@[simp] theorem fillSlot_sched (w : Nat) (s : State) : (fillSlot w s).sched = s.sched := rfl
@[simp] theorem fillSlot_turns (w : Nat) (s : State) : (fillSlot w s).turns = s.turns := rfl
@[simp] theorem fillSlot_initDraws (w : Nat) (s : State) : (fillSlot w s).initDraws = s.initDraws := rfl
@[simp] theorem fillSlot_epoch (w : Nat) (s : State) : (fillSlot w s).epoch = s.epoch := rfl
@[simp] theorem fillSlot_blockWords (w : Nat) (s : State) : (fillSlot w s).blockWords = s.blockWords := rfl

end Sys2Proof.Machine
end

