-- ==== Sys2Proof/Laws/Memory.lean ====
section
/-! SUPPORT. The laws of the two memories: a read after a write, and the canonical form, which every memory operation
keeps. -/

namespace Sys2Proof.Machine

variable {α : Type}

theorem cellRead_cellWrite (m : List (Nat × α)) (a b : Nat) (v : α) :
    cellRead (cellWrite m a v) b = if a = b then some v else cellRead m b := by
  induction m with
  | nil => simp [cellWrite, cellRead]
  | cons c rest ih =>
    obtain ⟨k, w⟩ := c
    simp only [cellWrite]
    split
    · simp [cellRead]
    · split
      · subst_vars; simp only [cellRead]; split <;> rfl
      · simp only [cellRead, ih]
        split
        · split
          · omega
          · rfl
        · rfl

@[simp] theorem cellRead_cellWrite_self (m : List (Nat × α)) (a : Nat) (v : α) :
    cellRead (cellWrite m a v) a = some v := by
  simp [cellRead_cellWrite]

theorem cellRead_cellWrite_other (m : List (Nat × α)) {a b : Nat} (v : α) (h : a ≠ b) :
    cellRead (cellWrite m a v) b = cellRead m b := by
  simp [cellRead_cellWrite, h]

theorem mem_cellWrite {m : List (Nat × α)} {a : Nat} {v : α} {c : Nat × α} (h : c ∈ cellWrite m a v) :
    c = (a, v) ∨ c ∈ m := by
  induction m with
  | nil => simpa [cellWrite] using h
  | cons d rest ih =>
    obtain ⟨k, w⟩ := d
    simp only [cellWrite] at h
    split at h
    · simpa using h
    · split at h
      · rcases List.mem_cons.1 h with h | h
        · exact .inl h
        · exact .inr (List.mem_cons_of_mem _ h)
      · rcases List.mem_cons.1 h with h | h
        · exact .inr (h ▸ List.mem_cons_self)
        · exact (ih h).imp id (List.mem_cons_of_mem _)

/-- A write inside the address space keeps the canonical form. -/
theorem cellWrite_canonical {bound : Nat} {m : List (Nat × α)} {a : Nat} {v : α}
    (hm : CellsCanonical bound m) (ha : a < bound) : CellsCanonical bound (cellWrite m a v) := by
  refine ⟨?_, fun c hc => ?_⟩
  · obtain ⟨hp, -⟩ := hm
    induction m with
    | nil => simp [cellWrite]
    | cons d rest ih =>
      obtain ⟨k, w⟩ := d
      obtain ⟨hk, hr⟩ := List.pairwise_cons.1 hp
      simp only [cellWrite]
      split
      · rename_i hlt
        refine List.pairwise_cons.2 ⟨fun c hc => ?_, hp⟩
        rcases List.mem_cons.1 hc with rfl | hc
        · exact hlt
        · exact lt_trans hlt (hk c hc)
      · split
        · rename_i heq
          exact List.pairwise_cons.2 ⟨fun c hc => heq ▸ hk c hc, hr⟩
        · refine List.pairwise_cons.2 ⟨fun c hc => ?_, ih hr⟩
          rcases mem_cellWrite hc with rfl | hc
          · simp only; omega
          · exact hk c hc
  · rcases mem_cellWrite hc with rfl | hc
    · exact ha
    · exact hm.2 c hc

/-- The caller's stores keep source memory in canonical form. -/
theorem storeCells_canonical (c : Config) (st : List Host.Cell) :
    ∀ m : List Host.Cell, Memory.wf c m → Memory.wf c (storeCells c m st) := by
  induction st with
  | nil => intro m h; exact h
  | cons d rest ih =>
    intro m h
    exact ih _ (cellWrite_canonical h (Nat.mod_lt _ (Nat.two_pow_pos _)))

/-- Source memory after the caller's stores: at each address the last byte stored there, elsewhere as before. -/
theorem cellRead_storeCells (c : Config) (st : List Host.Cell) (a : Nat) :
    ∀ m : List Host.Cell, cellRead (storeCells c m st) a =
      ((st.reverse.find? fun x => addrBits c x.1 == a).map Prod.snd).or (cellRead m a) := by
  induction st with
  | nil => intro m; rfl
  | cons d rest ih =>
    intro m
    simp only [storeCells, ih, List.reverse_cons, List.find?_append]
    cases rest.reverse.find? (fun x => addrBits c x.1 == a) with
    | some x => rfl
    | none => by_cases hd : addrBits c d.1 = a <;> simp [cellRead_cellWrite, hd]

/-- A listed byte is the byte read. -/
theorem memRead_of_listed {s : State} {a : Nat} {b : Byte} (h : cellRead s.srcMem (addrBits s.cfg a) = some b) :
    memRead s a = b := by
  simp [memRead, h]

theorem txWrite_canonical {s : State} {i : Nat} {v : Word} (h : TxBuf.wf s.cfg s.txbuf) (hi : i < s.cfg.bufWords) :
    TxBuf.wf (txWrite s i v).cfg (txWrite s i v).txbuf :=
  cellWrite_canonical h hi

theorem reset_txbuf_canonical : TxBuf.wf State.reset.cfg State.reset.txbuf := by
  simp [TxBuf.wf, CellsCanonical, State.reset]

theorem reset_source_canonical : Memory.wf State.reset.cfg State.reset.srcMem := by
  simp [Memory.wf, CellsCanonical, State.reset]

/-- A word written is the word read. -/
theorem txRead_txWrite (s : State) (i j : Nat) (v : Word) :
    txRead (txWrite s i v) j = if i = j then v else txRead s j := by
  simp only [txRead, txWrite, cellRead_cellWrite]
  split <;> rfl

theorem txRead_of_listed {s : State} {i : Nat} {v : Word} (h : cellRead s.txbuf i = some v) : txRead s i = v := by
  simp [txRead, h]

end Sys2Proof.Machine
end

