-- ==== Sys2Proof/Laws/Operands.lean ====
section
/-! SUPPORT. What the operand computations give, once each. -/

namespace Sys2Proof.Machine

theorem getLsbD_append16 (hi lo : HalfWord) (i : Nat) :
    BitVec.getLsbD (hi ++ lo : Word) i = if i < 16 then lo.getLsbD i else hi.getLsbD (i - 16) :=
  (BitVec.getLsbD_append (x := hi) (y := lo)).trans (by simp)

theorem getLsbD_append8 (hi lo : Byte) (i : Nat) :
    BitVec.getLsbD (hi ++ lo : HalfWord) i = if i < 8 then lo.getLsbD i else hi.getLsbD (i - 8) :=
  (BitVec.getLsbD_append (x := hi) (y := lo)).trans (by simp)

/-- The widening puts the byte on top of eight zero bits. -/
theorem widen_eq_append (b : Byte) : widen b = b ++ (0 : BitVec 8) := by
  refine BitVec.eq_of_getLsbD_eq fun i hi => ?_
  rw [getLsbD_append8]
  by_cases h : i < 8 <;> simp [widen, h, hi]

/-- A packed word is its two widened samples, the first in the low half. -/
theorem pack_eq_append (b0 b1 : Byte) : pack b0 b1 = widen b1 ++ widen b0 := by
  refine BitVec.eq_of_getLsbD_eq fun i hi => ?_
  rw [getLsbD_append16]
  simp only [widen, pack, BitVec.getLsbD_or, BitVec.getLsbD_shiftLeft, BitVec.truncate_eq_setWidth,
    BitVec.getLsbD_setWidth]
  interval_cases i <;> simp

/-- The lane a position selects from a word of two half-words. -/
theorem laneOf_append (hi lo : HalfWord) (h : BitVec 1) : laneOf (hi ++ lo) h = if h = 0 then lo else hi := by
  unfold laneOf
  split <;> refine BitVec.eq_of_getLsbD_eq fun i hi => ?_ <;>
    rw [BitVec.getLsbD_extractLsb', getLsbD_append16] <;> simp [hi]

@[simp] theorem laneOf_zero (h : BitVec 1) : laneOf 0 h = 0 := by
  unfold laneOf; split <;> simp

@[simp] theorem widen_zero : widen 0 = 0 := by decide

theorem advanceCursor_toNat (c l : Len) : (advanceCursor c l).toNat = min (c.toNat + 2) l.toNat := by
  have := l.isLt
  simp only [advanceCursor, BitVec.toNat_ofNat]
  omega

theorem bit_cases (b : BitVec 1) : b = 0 ∨ b = 1 := by
  revert b; decide

/-- The two halves begin at word 0 and at word `B`. -/
theorem halfBase_eq (s : State) (h : BitVec 1) : halfBase s h = if h = 0 then 0 else s.blockWords := by
  rcases bit_cases h with rfl | rfl <;> simp [halfBase]

/-- Two different halves never hold one word (42_transmitter.md R120). -/
theorem halves_disjoint {s : State} {g h : BitVec 1} {i j : Nat} (hgh : g ≠ h) (hi : i < s.blockWords)
    (hj : j < s.blockWords) : halfBase s g + i ≠ halfBase s h + j := by
  rcases bit_cases g with rfl | rfl <;> rcases bit_cases h with rfl | rfl <;>
    simp_all [halfBase] <;> omega

end Sys2Proof.Machine
end

