-- ==== Sys2Proof/Laws/Fill.lean ====
section
/-! SUPPORT. What a FILL can do, said once: the fields its loops touch, the words they write, and the words they
leave. -/

namespace Sys2Proof.Machine

/-- Reading the view depends on `SRC_PTR`, the configuration and source memory only. -/
theorem sourceByte_congr {s t : State} (hp : t.srcPtr = s.srcPtr) (hc : t.cfg = s.cfg) (hm : t.srcMem = s.srcMem)
    (k : Nat) : sourceByte t k = sourceByte s k := by
  simp [sourceByte, memRead, hp, hc, hm]

theorem viewWord_congr {s t : State} (hp : t.srcPtr = s.srcPtr) (hc : t.cfg = s.cfg) (hm : t.srcMem = s.srcMem)
    (hl : t.srcLen = s.srcLen) (k : Nat) : viewWord t k = viewWord s k := by
  simp only [viewWord, hl, sourceByte_congr hp hc hm]

/-- One slot writes the view's word at the cursor (R94). -/
theorem fillSlot_txbuf {s : State} (w : Nat) (h : s.cursor.toNat < s.srcLen.toNat) :
    (fillSlot w s).txbuf = cellWrite s.txbuf w (viewWord s s.cursor.toNat) := by
  simp only [fillSlot, viewWord, if_pos h]
  rfl

/-- `ZERO_FILL` touches `TXBUF` only. -/
theorem zeroFill_eq (base n : Nat) (s : State) :
    zeroFill base n s = { s with txbuf := (zeroFill base n s).txbuf } := by
  induction n generalizing base s with
  | zero => rfl
  | succ n ih => rw [zeroFill, ih]; rfl

/-- The words of `ZERO_FILL`: zero in the block, as before outside it. -/
theorem zeroFill_read (base n : Nat) (s : State) (i : Nat) :
    cellRead (zeroFill base n s).txbuf i = if base ≤ i ∧ i < base + n then some 0 else cellRead s.txbuf i := by
  induction n generalizing base s with
  | zero => simp only [zeroFill]; split <;> [omega; rfl]
  | succ n ih =>
    rw [zeroFill, ih]
    simp only [txWrite_txbuf, cellRead_cellWrite]
    split_ifs <;> first | rfl | omega

/-- `DATA_FILL` touches `TXBUF` and `CURSOR` only. -/
theorem dataFill_eq (base n : Nat) (s : State) :
    dataFill base n s = { s with txbuf := (dataFill base n s).txbuf, cursor := (dataFill base n s).cursor } := by
  induction n generalizing base s with
  | zero => rfl
  | succ n ih => rw [dataFill, ih]; split <;> rfl

/-- The cursor after `DATA_FILL` of `n` words (R106). -/
theorem dataFill_cursor (base n : Nat) (s : State) (h : s.cursor.toNat ≤ s.srcLen.toNat) :
    (dataFill base n s).cursor.toNat = min (s.cursor.toNat + 2 * n) s.srcLen.toNat := by
  induction n generalizing base s with
  | zero => simp only [dataFill]; omega
  | succ n ih =>
    rw [dataFill]
    split
    · rw [ih] <;> simp only [fillSlot_cursor, fillSlot_srcLen, advanceCursor_toNat] <;> omega
    · rw [ih] <;> simp only [txWrite_cursor, txWrite_srcLen] <;> omega

/-- The words of `DATA_FILL`: word `j` of the block is the view's word at `CURSOR + 2 j`; the rest is as before. -/
theorem dataFill_read (base n : Nat) (s : State) (h : s.cursor.toNat ≤ s.srcLen.toNat) (i : Nat) :
    cellRead (dataFill base n s).txbuf i =
      if base ≤ i ∧ i < base + n then some (viewWord s (s.cursor.toNat + 2 * (i - base)))
      else cellRead s.txbuf i := by
  induction n generalizing base s with
  | zero => simp only [dataFill]; split <;> [omega; rfl]
  | succ n ih =>
    rw [dataFill]
    by_cases hc : s.cursor.toNat < s.srcLen.toNat
    · rw [if_pos hc, ih]
      · rw [fillSlot_txbuf _ hc, cellRead_cellWrite, fillSlot_cursor, advanceCursor_toNat]
        have hv : ∀ k, viewWord (fillSlot base s) k = viewWord s k := fun k => viewWord_congr rfl rfl rfl rfl k
        by_cases hi : base = i
        · subst hi; rw [if_neg (by omega), if_pos rfl, if_pos (by omega)]; simp
        · by_cases hin : base + 1 ≤ i ∧ i < base + 1 + n
          · rw [if_pos hin, if_pos (by omega), hv]
            congr 1
            by_cases hodd : s.cursor.toNat + 2 ≤ s.srcLen.toNat
            · congr 1; omega
            · simp only [viewWord]; rw [if_neg (by omega), if_neg (by omega)]
          · rw [if_neg hin, if_neg hi, if_neg (by omega)]
      · simp only [fillSlot_cursor, fillSlot_srcLen, advanceCursor_toNat]; omega
    · rw [if_neg hc, ih]
      · have hv : ∀ k, viewWord (txWrite s base 0) k = viewWord s k := fun k => viewWord_congr rfl rfl rfl rfl k
        simp only [txWrite_txbuf, txWrite_cursor, cellRead_cellWrite, hv]
        have hz : ∀ j, viewWord s (s.cursor.toNat + 2 * j) = 0 := fun j => if_neg (by omega)
        simp only [hz]
        split_ifs <;> first | rfl | omega
      · exact h

/-- Both loops write inside `TXBUF` when the block does, so they keep its canonical form. -/
theorem zeroFill_canonical (base n : Nat) (s : State) (h : TxBuf.wf s.cfg s.txbuf) (hb : base + n ≤ s.cfg.bufWords) :
    TxBuf.wf s.cfg (zeroFill base n s).txbuf := by
  induction n generalizing base s with
  | zero => exact h
  | succ n ih =>
    rw [zeroFill]
    exact ih (base + 1) (txWrite s base 0) (txWrite_canonical h (by omega)) (by simp only [txWrite_cfg]; omega)

theorem dataFill_canonical (base n : Nat) (s : State) (h : TxBuf.wf s.cfg s.txbuf) (hb : base + n ≤ s.cfg.bufWords) :
    TxBuf.wf s.cfg (dataFill base n s).txbuf := by
  induction n generalizing base s with
  | zero => exact h
  | succ n ih =>
    rw [dataFill]
    split
    · rename_i hc
      refine ih (base + 1) (fillSlot base s) ?_ (by simp only [fillSlot_cfg]; omega)
      rw [fillSlot_txbuf _ hc, fillSlot_cfg]
      exact cellWrite_canonical h (by omega)
    · exact ih (base + 1) (txWrite s base 0) (txWrite_canonical h (by omega)) (by simp only [txWrite_cfg]; omega)

/-- Everything the state-dependent part of a FILL can do (R91): nothing, a data fill, or a fill with silence and one
transition. -/
theorem fillBody_cases (half : BitVec 1) (n : Nat) (s : State) :
    ((s.state = .idle ∨ s.state = .finished) ∧ fillBody half n s = s) ∨
    (s.state = .playing ∧ s.cursor.toNat < s.srcLen.toNat ∧ fillBody half n s = dataFill (halfBase s half) n s) ∨
    (s.state = .playing ∧ s.srcLen.toNat ≤ s.cursor.toNat ∧
      fillBody half n s = { zeroFill (halfBase s half) n s with state := .finishing }) ∨
    (s.state = .finishing ∧ fillBody half n s = { zeroFill (halfBase s half) n s with state := .finished }) := by
  unfold fillBody
  cases hs : s.state
  · exact .inl ⟨.inl rfl, rfl⟩
  · by_cases hc : s.cursor.toNat < s.srcLen.toNat
    · exact .inr (.inl ⟨rfl, hc, if_pos hc⟩)
    · exact .inr (.inr (.inl ⟨rfl, by omega, if_neg hc⟩))
  · exact .inr (.inr (.inr ⟨rfl, rfl⟩))
  · exact .inl ⟨.inr rfl, rfl⟩

/-- A FILL answers a next state exactly when `n ≤ B`. -/
theorem execFill_next {half : BitVec 1} {n : BitVec 16} {s t : State} (h : execFill half n s = .next t) :
    n.toNat ≤ s.blockWords ∧ t = endFill (fillBody half n.toNat s) := by
  unfold execFill at h
  split at h
  · cases h
  · cases h; exact ⟨by omega, rfl⟩

end Sys2Proof.Machine
end

