-- ==== Sys2Proof/Laws/PerInstr.lean ====
section
/-! SUPPORT. The families of statements made per instruction. -/

namespace Sys2Proof.Laws

/-- The encoding of a well-formed operation matches its row of the opcode table (30_encoding.md R66, R69): a command's
descriptor lies in the 64 bits of the standard port and spells its row and no other; a fill bundle reads back as the
FILL it was written from. -/
def MatchesOpcodeRow.Statement (i : Instr) : Prop :=
  i.wellFormed Config.standard.addrW = true →
    match encode i with
    | .cmd d => d.extractLsb' 64 32 = 0 ∧
        ∀ r ∈ opcodeMap, r.spells (d.setWidth 64) = true ↔ r.mnemonic = i.mnemonic
    | .evt f => decodeFrq f = i ∧ i.mnemonic = "FILL"

theorem MatchesOpcodeRow.init : MatchesOpcodeRow.Statement .init := fun _ => by
  simp only [encode]
  decide

theorem MatchesOpcodeRow.enable : MatchesOpcodeRow.Statement .enable := fun _ => by
  simp only [encode]
  decide

theorem MatchesOpcodeRow.disable : MatchesOpcodeRow.Statement .disable := fun _ => by
  simp only [encode]
  decide

theorem MatchesOpcodeRow.stop : MatchesOpcodeRow.Statement .stop := fun _ => by
  simp only [encode]
  decide

theorem toNat_append {n m : Nat} (x : BitVec n) (y : BitVec m) :
    (x ++ y : BitVec (n + m)).toNat = x.toNat * 2 ^ m + y.toNat := by
  rw [BitVec.toNat_append, ← Nat.shiftLeft_add_eq_or_of_lt y.isLt, Nat.shiftLeft_eq]

/-- A descriptor as a number (R64). -/
theorem toNat_encodeDescriptor (opc : BitVec 4) (len : Len) (addr : Addr) :
    (encodeDescriptor opc len addr).toNat = addr.toNat * 2 ^ 32 + len.toNat * 2 ^ 16 + opc.toNat := by
  have h : (encodeDescriptor opc len addr).toNat =
      ((addr.toNat * 2 ^ 16 + len.toNat) * 2 ^ 12 + 0) * 2 ^ 4 + opc.toNat :=
    (toNat_append _ _).trans
      (congrArg (· * 2 ^ 4 + opc.toNat)
        ((toNat_append _ _).trans (congrArg (· * 2 ^ 12 + 0) (toNat_append addr len))))
  omega

theorem MatchesOpcodeRow.play (addr : Addr) (len : Len) : MatchesOpcodeRow.Statement (.play addr len) := by
  intro h
  have ha : addr.toNat < 2 ^ 32 := of_decide_eq_true h
  have hd := toNat_encodeDescriptor 4 len addr
  have hl := len.isLt
  rw [show (4 : BitVec 4).toNat = 4 from rfl] at hd
  have h64 : ((encodeDescriptor 4 len addr).setWidth 64).toNat = addr.toNat * 2 ^ 32 + len.toNat * 2 ^ 16 + 4 := by
    rw [BitVec.toNat_setWidth, hd]; omega
  have hlow : (encodeDescriptor 4 len addr).setWidth 64 &&& 0x000000000000FFFF = (4 : BitVec 64) := by
    apply BitVec.eq_of_toNat_eq
    rw [BitVec.toNat_and, h64, show (0x000000000000FFFF : BitVec 64).toNat = 2 ^ 16 - 1 from rfl,
      Nat.and_two_pow_sub_one_eq_mod, show (4 : BitVec 64).toNat = 4 from rfl]
    omega
  have hall : ∀ v : BitVec 64, v.toNat % 2 ^ 4 ≠ 4 →
      (encodeDescriptor 4 len addr).setWidth 64 &&& 0xFFFFFFFFFFFFFFFF ≠ v := by
    intro v hv he
    have hn := congrArg BitVec.toNat he
    rw [BitVec.toNat_and, h64, show (0xFFFFFFFFFFFFFFFF : BitVec 64).toNat = 2 ^ 64 - 1 from rfl,
      Nat.and_two_pow_sub_one_eq_mod] at hn
    omega
  refine ⟨?_, fun r hr => ?_⟩
  · apply BitVec.eq_of_toNat_eq
    rw [BitVec.extractLsb'_toNat, hd, Nat.shiftRight_eq_div_pow, show (0 : BitVec 32).toNat = 0 from rfl]
    omega
  · simp only [opcodeMap, List.mem_cons, List.not_mem_nil, or_false] at hr
    rcases hr with rfl | rfl | rfl | rfl | rfl <;> simp only [OpcodeRow.spells, Instr.mnemonic, beq_iff_eq]
    · exact iff_of_false (hall _ (by decide)) (by decide)
    · exact iff_of_false (hall _ (by decide)) (by decide)
    · exact iff_of_false (hall _ (by decide)) (by decide)
    · exact iff_of_true hlow trivial
    · exact iff_of_false (hall _ (by decide)) (by decide)

theorem MatchesOpcodeRow.fill (half : BitVec 1) (n : BitVec 16) : MatchesOpcodeRow.Statement (.fill half n) := by
  intro _
  have hf : (encodeFrq half n).toNat = half.toNat * 2 ^ 16 + n.toNat := toNat_append half n
  have hn := n.isLt
  have hh := half.isLt
  refine ⟨?_, rfl⟩
  unfold decodeFrq
  congr 1 <;> apply BitVec.eq_of_toNat_eq <;>
    rw [BitVec.extractLsb'_toNat, hf, Nat.shiftRight_eq_div_pow] <;> omega

end Sys2Proof.Laws
end

