-- ==== Sys2Proof/Laws/Transmitter.lean ====
section
/-! SUPPORT. What an EMIT can do, said once. -/

namespace Sys2Proof.Machine

/-- An EMIT that answers a next state met no underrun and a legal position (R114, R119). -/
theorem emit_next {s t : State} (h : emit s = .next t) :
    (halfBegins s = true → s.fillPend = false) ∧ s.txIdx.toNat < s.blockWords ∧ t = emitHalfWord s := by
  unfold emit at h
  split at h
  · cases h
  · split at h
    · cases h; simp_all
    · cases h

theorem halfBegins_iff (s : State) : halfBegins s = true ↔ s.txIdx = 0 ∧ s.hsel = 0 := by
  simp [halfBegins]

/-- EMIT as one record: the request bits of R115, one half-word more, the position of R117. -/
theorem emitHalfWord_eq (s : State) :
    emitHalfWord s =
      { s with
        out := s.out ++ [positionHalfWord s]
        fillPend := if halfBegins s then true else s.fillPend
        fillHalf := if halfBegins s then 1 - s.txHalf else s.fillHalf
        frqN := if halfBegins s then BitVec.ofNat 16 s.blockWords else s.frqN
        hsel := if s.hsel = 0 then 1 else 0
        txIdx := if s.hsel = 0 then s.txIdx else if s.txIdx.toNat + 1 = s.blockWords then 0 else s.txIdx + 1
        txHalf := if s.hsel ≠ 0 ∧ s.txIdx.toNat + 1 = s.blockWords then 1 - s.txHalf else s.txHalf } := by
  unfold emitHalfWord requestIfHalfBegins advancePosition
  by_cases hb : halfBegins s = true
  · obtain ⟨hi, hh⟩ := (halfBegins_iff s).1 hb
    simp [hb, hi, hh, raiseRequest]
  · rcases bit_cases s.hsel with hh | hh
    · simp [hb, hh]
    · simp only [State.blockWords]
      by_cases hl : s.txIdx.toNat + 1 = s.cfg.blockWords <;> simp [hb, hh, hl]

section
variable (s : State)
@[simp] theorem emitHalfWord_srcPtr : (emitHalfWord s).srcPtr = s.srcPtr := by
  rw [emitHalfWord_eq]
@[simp] theorem emitHalfWord_srcLen : (emitHalfWord s).srcLen = s.srcLen := by
  rw [emitHalfWord_eq]
@[simp] theorem emitHalfWord_cursor : (emitHalfWord s).cursor = s.cursor := by
  rw [emitHalfWord_eq]
@[simp] theorem emitHalfWord_state : (emitHalfWord s).state = s.state := by
  rw [emitHalfWord_eq]
@[simp] theorem emitHalfWord_txbuf : (emitHalfWord s).txbuf = s.txbuf := by
  rw [emitHalfWord_eq]
@[simp] theorem emitHalfWord_ampEn : (emitHalfWord s).ampEn = s.ampEn := by
  rw [emitHalfWord_eq]
@[simp] theorem emitHalfWord_inited : (emitHalfWord s).inited = s.inited := by
  rw [emitHalfWord_eq]
@[simp] theorem emitHalfWord_halted : (emitHalfWord s).halted = s.halted := by
  rw [emitHalfWord_eq]
@[simp] theorem emitHalfWord_hostPh : (emitHalfWord s).hostPh = s.hostPh := by
  rw [emitHalfWord_eq]
@[simp] theorem emitHalfWord_tph : (emitHalfWord s).tph = s.tph := by
  rw [emitHalfWord_eq]
@[simp] theorem emitHalfWord_fillPend : (emitHalfWord s).fillPend = (if halfBegins s then true else s.fillPend) := by
  rw [emitHalfWord_eq]
@[simp] theorem emitHalfWord_fillHalf : (emitHalfWord s).fillHalf = (if halfBegins s then 1 - s.txHalf else s.fillHalf) := by
  rw [emitHalfWord_eq]
@[simp] theorem emitHalfWord_txHalf : (emitHalfWord s).txHalf = (if s.hsel ≠ 0 ∧ s.txIdx.toNat + 1 = s.blockWords then 1 - s.txHalf else s.txHalf) := by
  rw [emitHalfWord_eq]
@[simp] theorem emitHalfWord_txIdx : (emitHalfWord s).txIdx = (if s.hsel = 0 then s.txIdx else if s.txIdx.toNat + 1 = s.blockWords then 0 else s.txIdx + 1) := by
  rw [emitHalfWord_eq]
@[simp] theorem emitHalfWord_hsel : (emitHalfWord s).hsel = (if s.hsel = 0 then 1 else 0) := by
  rw [emitHalfWord_eq]
@[simp] theorem emitHalfWord_out : (emitHalfWord s).out = s.out ++ [positionHalfWord s] := by
  rw [emitHalfWord_eq]
@[simp] theorem emitHalfWord_frqN : (emitHalfWord s).frqN = (if halfBegins s then BitVec.ofNat 16 s.blockWords else s.frqN) := by
  rw [emitHalfWord_eq]
@[simp] theorem emitHalfWord_cfg : (emitHalfWord s).cfg = s.cfg := by
  rw [emitHalfWord_eq]
@[simp] theorem emitHalfWord_srcMem : (emitHalfWord s).srcMem = s.srcMem := by
  rw [emitHalfWord_eq]
@[simp] theorem emitHalfWord_calls : (emitHalfWord s).calls = s.calls := by
  rw [emitHalfWord_eq]
@[simp] theorem emitHalfWord_sched : (emitHalfWord s).sched = s.sched := by
  rw [emitHalfWord_eq]
@[simp] theorem emitHalfWord_turns : (emitHalfWord s).turns = s.turns := by
  rw [emitHalfWord_eq]
@[simp] theorem emitHalfWord_initDraws : (emitHalfWord s).initDraws = s.initDraws := by
  rw [emitHalfWord_eq]
@[simp] theorem emitHalfWord_epoch : (emitHalfWord s).epoch = s.epoch := by
  rw [emitHalfWord_eq]
@[simp] theorem emitHalfWord_blockWords : (emitHalfWord s).blockWords = s.blockWords := by
  simp [State.blockWords]
end

/-- The next word index of a half, when there is one. -/
theorem txIdx_succ {s : State} (hi : s.txIdx.toNat < s.blockWords) (hB : s.blockWords ≤ 32767)
    (_hl : s.txIdx.toNat + 1 ≠ s.blockWords) : (s.txIdx + 1).toNat = s.txIdx.toNat + 1 := by
  rw [BitVec.toNat_add, show (1 : BitVec 15).toNat = 1 from rfl, Nat.mod_eq_of_lt]
  omega

/-- The ring position advances by one around the `4 B` half-words of `TXBUF` (R117). -/
theorem ringPosition_emitHalfWord (s : State) (hi : s.txIdx.toNat < s.blockWords) (hB : s.blockWords ≤ 32767) :
    ringPosition (emitHalfWord s) = (ringPosition s + 1) % (4 * s.blockWords) ∧
      (emitHalfWord s).txIdx.toNat < s.blockWords := by
  simp only [ringPosition, positionWord, halfBase_eq, emitHalfWord_blockWords, emitHalfWord_txIdx,
    emitHalfWord_txHalf, emitHalfWord_hsel]
  have h10 : (1 : BitVec 1) = 0 ↔ False := by decide
  have h11 : (1 : BitVec 1) - 1 = 0 := by decide
  have h1 : (1 : BitVec 1) - 0 = 1 := by decide
  have hx := txIdx_succ hi hB
  rcases bit_cases s.hsel with hh | hh <;> rcases bit_cases s.txHalf with ht | ht <;>
    by_cases hl : s.txIdx.toNat + 1 = s.blockWords
  all_goals
    simp only [hh, ht, hl, hx, h10, h11, h1, if_true, if_false, ne_eq, not_true_eq_false, not_false_eq_true, and_true,
      and_false, show (0 : BitVec 1).toNat = 0 from rfl, show (1 : BitVec 1).toNat = 1 from rfl,
      show (0 : BitVec 15).toNat = 0 from rfl]
    refine ⟨?_, by omega⟩
    first
    | rw [Nat.mod_eq_of_lt (by omega)] <;> omega
    | rw [show 2 * (s.blockWords + s.txIdx.toNat) + 1 + 1 = 4 * s.blockWords by omega, Nat.mod_self]

end Sys2Proof.Machine
end

