-- ==== Sys2Proof/Laws/Turns.lean ====
section
/-! SUPPORT. What a step can do, said once (`runTurn_cases`), and what a command can do (`exec_command_cases`). -/

namespace Sys2Proof.Machine

/-- The command decoder answers one of the five commands (30_encoding.md R68), never FILL. -/
theorem decodeCmd_command {w : Nat} {d : Descriptor} {i : Instr} (h : decodeCmd w d = .instr i) :
    i = .init ∨ i = .enable ∨ i = .disable ∨ (∃ a l, i = .play a l) ∨ i = .stop := by
  unfold decodeCmd decodeBare decodePlay at h
  split at h
  · split at h <;> first | (split at h <;> simp_all) | simp_all
    subst h; simp
  · cases h

/-- Everything a host command can do when it answers a next state (40_lifecycle_commands.md R77 to R83). -/
theorem exec_command_cases {i : Instr} {s t : State} (hf : ∀ half n, i ≠ .fill half n) (h : exec i s = .next t) :
    (i = .init ∧ s.inited = false ∧
      t = initStep (initDraw s) { s with initDraws := s.initDraws + 1 }) ∨
    (s.inited = true ∧
      ((i = .enable ∧ t = ampSet s) ∨ (i = .disable ∧ t = ampClear s) ∨ (i = .stop ∧ t = haltPlayback s) ∨
        (∃ a, i = .play a 0 ∧ t = s) ∨
        (∃ a l, i = .play a l ∧ l ≠ 0 ∧ a.toNat + l.toNat ≤ 2 ^ s.cfg.addrW ∧ t = armPlay a l s))) := by
  cases i with
  | init =>
    simp only [exec, execInit] at h
    split at h
    · cases h
    · cases h; exact .inl ⟨rfl, by simp_all, rfl⟩
  | enable =>
    simp only [exec, execEnable, whenInitialised] at h
    split at h <;> cases h
    exact .inr ⟨‹_›, .inl ⟨rfl, rfl⟩⟩
  | disable =>
    simp only [exec, execDisable, whenInitialised] at h
    split at h <;> cases h
    exact .inr ⟨‹_›, .inr (.inl ⟨rfl, rfl⟩)⟩
  | stop =>
    simp only [exec, execStop, whenInitialised] at h
    split at h <;> cases h
    exact .inr ⟨‹_›, .inr (.inr (.inl ⟨rfl, rfl⟩))⟩
  | play a l =>
    simp only [exec, execPlay, whenInitialised] at h
    split at h
    · refine .inr ⟨‹_›, .inr (.inr (.inr ?_))⟩
      split at h
      · cases h; subst l; exact .inl ⟨a, rfl, rfl⟩
      · split at h
        · cases h
        · split at h
          · cases h
          · cases h
            refine .inr ⟨a, l, rfl, ‹_›, ?_, rfl⟩
            simp_all [viewWraps]
    · cases h
  | fill half n => exact absurd rfl (hf half n)

/-- What the taker of a turn can do when it answers a next state: hold, accept a command, complete a PLAY, serve a
FILL, EMIT, or reset. -/
theorem runTurn_cases {w : Turn} {u t : State} (h : runTurn w u = .next t) :
    t = u ∨
    (w = .host ∧ u.hostPh = .ready ∧ u.halted = false ∧
      ∃ c rest i, u.calls = c :: rest ∧ decodeCmd u.cfg.addrW c.desc = .instr i ∧ exec i (latchCall c rest u) = .next t) ∨
    (w = .host ∧ u.hostPh = .wait ∧ u.state = .finished ∧ t = completePlay u) ∨
    (w = .fillEngine ∧ u.fillPend = true ∧ u.frqN.toNat ≤ u.blockWords ∧
      t = endFill (fillBody u.fillHalf u.frqN.toNat u)) ∨
    (w = .transmitter ∧ u.tph = .streaming ∧ (halfBegins u = true → u.fillPend = false) ∧
      u.txIdx.toNat < u.blockWords ∧ t = emitHalfWord u) ∨
    (w = .reset ∧ u.hostPh = .ready ∧ t = applyReset u) := by
  cases w <;> simp only [runTurn] at h
  · unfold hostTurn at h
    split at h
    · split at h <;> cases h
      · exact .inr (.inr (.inl ⟨rfl, ‹_›, ‹_›, rfl⟩))
      · exact .inl rfl
    · split at h
      · cases h; exact .inl rfl
      · split at h
        · cases h; exact .inl rfl
        · unfold acceptCall at h
          split at h
          · exact .inr (.inl ⟨rfl, ‹_›, by simp_all, _, _, _, ‹_›, ‹_›, h⟩)
          · cases h
  · unfold fillTurn at h
    split at h
    · obtain ⟨hn, rfl⟩ := execFill_next h
      exact .inr (.inr (.inr (.inl ⟨rfl, ‹_›, hn, rfl⟩)))
    · cases h; exact .inl rfl
  · unfold emitTurn at h
    split at h
    · obtain ⟨hu, hi, rfl⟩ := emit_next h
      exact .inr (.inr (.inr (.inr (.inl ⟨rfl, ‹_›, hu, hi, rfl⟩))))
    · cases h; exact .inl rfl
  · unfold resetTurn at h
    split at h <;> cases h
    · exact .inr (.inr (.inr (.inr (.inr ⟨rfl, ‹_›, rfl⟩))))
    · exact .inl rfl

end Sys2Proof.Machine
end

