-- ==== Sys2Proof/Tests/Slice0.lean ====
section
/-! SUPPORT. Tests of the model, with expected values from spec/95_test_vectors.md and the examples of the rules, and
one witness per statement that has hypotheses. -/

namespace Sys2Proof.Tests

open Sys2Proof.Machine

/-! ### Well-formedness and the configuration -/

theorem test_play_address_fits : (Instr.play 0xFFFFFFFF 65535).wellFormed 32 = true := by decide

theorem test_play_address_too_wide : (Instr.play 0x100000000 1).wellFormed 32 = false := by decide

theorem test_legal_standard : Config.standard.legal = true := by decide

theorem test_illegal_odd_buffer : { Config.standard with bufWords := 3 }.legal = false := by decide

theorem test_illegal_empty_buffer : { Config.standard with bufWords := 0 }.legal = false := by decide

theorem test_illegal_large_buffer : { Config.standard with bufWords := 65536 }.legal = false := by decide

theorem test_illegal_narrow_address : { Config.standard with addrW := 15 }.legal = false := by decide

theorem test_illegal_wide_address : { Config.standard with addrW := 65 }.legal = false := by decide

/-! ### Decoding: words written out from the bit tables of 30_encoding.md R64 and R69, and 95_test_vectors.md 2.1 -/

/-- `OPC` = 0001, every other bit 0. -/
theorem test_decode_init : decodeCmd 32 0b0001 = .instr .init := by decide

theorem test_decode_enable : decodeCmd 32 0b0010 = .instr .enable := by decide

theorem test_decode_disable : decodeCmd 32 0b0011 = .instr .disable := by decide

theorem test_decode_stop : decodeCmd 32 0b0101 = .instr .stop := by decide

/-- `ADDR` 20002000 hexadecimal in [63:32], `LEN` 3 in [31:16], `RSV` 0, `OPC` 0100. -/
theorem test_decode_play :
    decodeCmd 32 0b0010000000000000001000000000000000000000000000110000000000000100 =
      .instr (.play 0x20002000 3) := by decide

theorem test_decode_play_extremes : decodeCmd 32 0xFFFFFFFF00010004 = .instr (.play 0xFFFFFFFF 1) := by decide

/-- Bit 16 `half`, bits [15:0] `n` = 500. -/
theorem test_decode_fill : decodeFrq 0b10000000111110100 = .fill 1 500 := by decide

/-- The reserved descriptors of 95_test_vectors.md 2.1. -/
theorem test_decode_reserved :
    [0x0, 0x6, 0xF, 0x11, 0x10002, 0x100000005, 0x2000100000040014, 0x2000100000048004].map (decodeCmd 32) =
      List.replicate 8 .reservedEncoding := rfl

/-- A narrower address: the unused upper bits of `ADDR` must be 0 (R64). A wider one: the descriptor grows. -/
theorem test_decode_address_width :
    decodeCmd 16 0x0000FFFF00010004 = .instr (.play 0xFFFF 1) ∧
    decodeCmd 16 0x0001000000010004 = .reservedEncoding ∧
    decodeCmd 64 0x800000002000100000040004 = .instr (.play 0x8000000020001000 4) := by decide

theorem test_table_words :
    decodeTableWord 64 0x1 = some .init ∧ decodeTableWord 64 0x2000100000040004 = some (.play 0x20001000 4) ∧
    decodeTableWord 64 0x6 = none ∧ decodeTableWord 24 0x101F4 = some (.fill 1 500) ∧
    decodeTableWord 24 0x20000 = none := by decide

/-! ### States -/

/-- The standard configuration with another buffer. -/
def cfgOf (words : Nat) : Config := { Config.standard with bufWords := words }

/-- After a successful INIT. -/
def ready (words : Nat) : State := { State.reset with cfg := cfgOf words, inited := true }

/-- A state of 95_test_vectors.md 2.3: `B` = 2, memory 0x100: 01 02 03 04 05 06, `SRC_PTR` = 0x100. -/
def filling (st : PlaybackState) (len cursor : Len) (words : List (Nat × Word)) : State :=
  { ready 4 with
    srcPtr := 0x100, srcLen := len, cursor := cursor, state := st, txbuf := words, fillPend := true, frqN := 2
    srcMem := [(0x100, 1), (0x101, 2), (0x102, 3), (0x103, 4), (0x104, 5), (0x105, 6)] }

/-- Four words. -/
def four (a b c d : Word) : List (Nat × Word) := [(0, a), (1, b), (2, c), (3, d)]

/-- What a meaning left, as far as a test looks. -/
def look {α : Type} (f : State → α) : Host.Outcome State Fault Refusal → Option α
  | .next s => some (f s)
  | .fault _ => none
  | .refused _ => none

/-- A session over the one byte 0x80 with `B` = 1, streaming. -/
def session (st : PlaybackState) (pend : Bool) (fillHalf txHalf hsel : BitVec 1) (out : List HalfWord)
    (words : List (Nat × Word)) : State :=
  { ready 2 with
    srcPtr := 0x100, srcLen := 1, cursor := 1, state := st, txbuf := words, ampEn := true, hostPh := .wait
    tph := .streaming, fillPend := pend, fillHalf := fillHalf, txHalf := txHalf, hsel := hsel, out := out, frqN := 1
    srcMem := [(0x100, 0x80)] }

/-- The same session just armed. -/
def armed : State := armPlay 0x100 1 { ready 2 with srcMem := [(0x100, 0x80)] }

/-- One half-word sent, one block filled, the next requested. -/
def playing : State := session .playing true 1 0 1 [0x8000] [(0, 0x8000)]

/-- As `playing`, one half-word later: the second block begins and its fill is late. -/
def late : State := session .playing true 1 1 0 [0x8000, 0] [(0, 0x8000)]

/-- Two half-words sent, two blocks filled: the second block begins. -/
def edge : State := session .finishing false 1 1 0 [0x8000, 0] [(0, 0x8000), (1, 0)]

/-- Three half-words sent, two blocks filled, the third requested. -/
def finishing : State := session .finishing true 0 1 1 [0x8000, 0, 0] [(0, 0x8000), (1, 0)]

/-- The source drained. -/
def drained : State := session .finished false 0 1 1 [0x8000, 0, 0] [(0, 0), (1, 0)]

/-- A turn given. -/
def turn (t : Turn) (s : State) : State := { s with sched := t :: s.sched }

/-- A command waiting. -/
def calling (d : Descriptor) (s : State) : State := { s with calls := [{ stores := [], desc := d }] }

/-! ### The six instructions (95_test_vectors.md 2.6, 2.3) -/

/-- 2.6 rows 1 and 2: `STATUS` and `cmd_ready` after `init()` for either draw a configuration gives. -/
theorem test_init_given_draws :
    let s := { State.reset with cfg := { cfgOf 2 with initOk := [false, true] } }
    look (fun t => (statusWord t, cmdReady t)) (exec .init s) = some (0x20, false) ∧
    look statusWord (exec .init { s with initDraws := 1 }) = some 0x10 := by decide

/-- 2.6 row 15. -/
theorem test_init_twice : exec .init (ready 2) = .refused .alreadyInitialised := rfl

/-- 2.6 rows 3, 4 and 13. -/
theorem test_enable :
    look statusWord (exec .enable (ready 2)) = some 0x14 ∧
    look statusWord (exec .enable { ready 2 with ampEn := true }) = some 0x14 := by decide

theorem test_enable_before_init : exec .enable State.reset = .refused .notInitialised := rfl

/-- 2.6 rows 5 and 6. -/
theorem test_disable :
    look statusWord (exec .disable { ready 2 with ampEn := true }) = some 0x10 ∧
    look statusWord (exec .disable (ready 2)) = some 0x10 := by decide

/-- 2.6 row 7. -/
theorem test_stop : look statusWord (exec .stop { ready 2 with ampEn := true }) = some 0x10 := by decide

/-- 2.6 rows 9, 10 and 17. -/
theorem test_play_status :
    look statusWord (exec (.play 0x20001000 0) (ready 2)) = some 0x10 ∧
    look statusWord (exec (.play 0x20001000 4) (ready 2)) = some 0x5D ∧
    look statusWord (exec (.play 0xFFFFFFFF 1) (ready 2)) = some 0x5D := by decide

/-- 2.6 row 16. -/
theorem test_play_wraps : exec (.play 0xFFFFFFFF 2) (ready 2) = .refused .viewWraps := rfl

/-- 2.3 rows 2, 3, 12 and 13: the words a data fill leaves. -/
theorem test_fill_data :
    look State.txbuf (exec (.fill 0 2) (filling .playing 6 0 (four 7 7 7 7))) =
      some (four 0x02000100 0x04000300 7 7) ∧
    look State.txbuf (exec (.fill 1 2) (filling .playing 6 4 (four 0x02000100 0x04000300 7 7))) =
      some (four 0x02000100 0x04000300 0x06000500 0) ∧
    look State.txbuf (exec (.fill 1 2) (filling .playing 5 4 (four 7 7 7 7))) = some (four 7 7 0x00000500 0) ∧
    look State.cursor (exec (.fill 0 2) (filling .playing 1 0 (four 7 7 7 7))) = some 1 := by decide

/-- 2.3 rows 4, 5, 6, 9 and 10: silence, the transitions, and `n` = 0. -/
theorem test_fill_silence :
    look (fun s => (s.txbuf, s.state)) (exec (.fill 0 2) (filling .playing 6 6 (four 7 7 0x06000500 0))) =
      some (four 0 0 0x06000500 0, .finishing) ∧
    look (fun s => (s.txbuf, s.state)) (exec (.fill 1 2) (filling .finishing 6 6 (four 0 0 7 7))) =
      some (four 0 0 0 0, .finished) ∧
    look (fun s => (s.txbuf, s.state)) (exec (.fill 0 2) (filling .finished 6 6 (four 9 9 9 9))) =
      some (four 9 9 9 9, .finished) ∧
    look (fun s => (s.txbuf, s.state)) (exec (.fill 0 0) (filling .playing 6 6 (four 7 7 7 7))) =
      some (four 7 7 7 7, .finishing) := by decide

/-! ### The other steps -/

/-- 70_reset_and_hazards.md R172: 63.0 ms for `k` = 1 and 31.5 ms for `k` = 2. -/
theorem test_block_period :
    { Config.standard with channelLayout := some .leftOnly }.blockPeriodMicros / 100 = 630 ∧
    { Config.standard with channelLayout := some .stereoSlots }.blockPeriodMicros / 100 = 315 := by decide

/-- 2.2. -/
theorem test_pack :
    pack 0x10 0x20 = 0x20001000 ∧ pack 0xAB 0x00 = 0x0000AB00 ∧ pack 0xFF 0x80 = 0x8000FF00 ∧
    pack 0x01 0xFF = 0xFF000100 := by decide

/-- 2.5, EMITs 1 and 4 of `B` = 2: the half-word, and the position after. -/
theorem test_emit :
    look (fun s => (s.out, s.hsel, s.fillPend, s.fillHalf))
      (emit { ready 4 with txbuf := four 0x02000100 0x04000300 0x06000500 0, tph := .streaming }) =
      some ([0x0100], 1, true, 1) ∧
    look (fun s => (s.out, s.txHalf, s.txIdx, s.hsel))
      (emit { ready 4 with txbuf := four 0x02000100 0x04000300 0x06000500 0, tph := .streaming, txIdx := 1,
                           hsel := 1 }) =
      some ([0x0400], 1, 0, 0) := by decide

/-- 2.6 row 12: PLAY's completion takes `STATUS` from 0x0004005F to 0x00040010. -/
theorem test_completion :
    statusWord { drained with cursor := 4, srcLen := 4 } = 0x0004005F ∧
    statusWord (completePlay { drained with cursor := 4, srcLen := 4 }) = 0x00040010 := by decide

/-- 42_transmitter.md R119. -/
theorem test_underrun : step (turn .transmitter late) = .fault .underrun := rfl

/-- 2.6 row 19: a command presented during a session waits. -/
theorem test_command_waits :
    look State.calls (step (turn .host (calling 0x5 playing))) = some (calling 0x5 playing).calls := by decide

/-- `withFetchWord` runs the instruction it places as the first step after reset. -/
theorem test_fetch_command :
    step (State.reset.withFetchWord 64 0x1) = exec .init (takeTurn (latchCall { stores := [], desc := 1 } []
      (State.reset.withFetchWord 64 0x1))) ∧
    look State.fillPend (step (State.reset.withFetchWord 24 0x101F4)) = some false := ⟨rfl, by decide⟩

/-! ### Witnesses: concrete states and operands that meet the hypotheses of each statement -/

theorem witness_DecodeEncodeAgree :
    (Instr.play 0xFFFFFFFFFFFFFFFF 65535).wellFormed 64 = true ∧ (Instr.fill 1 65535).wellFormed 16 = true := by decide

theorem witness_EncodeDecodeAgree :
    decodeCmd 64 0xFFFFFFFFFFFFFFFFFFFF0004 = .instr (.play 0xFFFFFFFFFFFFFFFF 65535) := by decide

/-- Each row is spelled by a descriptor; one descriptor is spelled by none. -/
theorem witness_DescriptorSpellsItsRow :
    (∀ r ∈ opcodeMap, r.spells r.pattern = true) ∧ ∀ r ∈ opcodeMap, r.spells 0x6 = false := by decide

theorem witness_ReservedDescriptorsRefused :
    let s := turn .host (calling 0x11 (ready 2))
    nextTurn s = .host ∧ s.hostPh = .ready ∧ s.halted = false ∧ s.calls = { stores := [], desc := 0x11 } :: [] ∧
    decodeCmd s.cfg.addrW 0x11 = .reservedEncoding := by decide

theorem witness_InitTakesEffect : State.reset.inited = false ∧ (ready 2).inited = true := by decide

theorem witness_EnableSetsAmplifier : (ready 2).inited = true := rfl

theorem witness_DisableClearsAmplifier : (ready 2).inited = true := rfl

theorem witness_StopHaltsPlayback : playing.inited = true ∧ (ready 2).inited = true := by decide

theorem witness_PlayOfNothingIsNoop : (ready 2).inited = true := rfl

/-- The view that ends at the last address, with a region of side effects that ends where the view begins. -/
theorem witness_PlayArmsSession :
    let s := { ready 2 with cfg := { cfgOf 2 with sideEffects := [{ base := 0xFFFFFFF0, size := 12 }] } }
    s.inited = true ∧ (4 : Len) ≠ 0 ∧ (0xFFFFFFFC : Addr).toNat + (4 : Len).toNat ≤ 2 ^ s.cfg.addrW ∧
    ∀ r ∈ s.cfg.sideEffects, ∀ x, (0xFFFFFFFC : Addr).toNat ≤ x → x < (0xFFFFFFFC : Addr).toNat + (4 : Len).toNat →
      ¬(r.base ≤ x ∧ x < r.base + r.size) := by
  refine ⟨rfl, by decide, by decide, fun r hr x hx _ => ?_⟩
  obtain rfl := List.mem_singleton.1 hr
  have : (0xFFFFFFFC : Addr).toNat = 0xFFFFFFFC := rfl
  simp only
  omega

/-- One byte past the address space; and one byte of overlap at the last byte of the view. -/
theorem witness_PlayRefusesBadView :
    let s := { ready 2 with cfg := { cfgOf 2 with sideEffects := [{ base := 0x20001003, size := 1 }] } }
    s.inited = true ∧ (4 : Len) ≠ 0 ∧ 2 ^ s.cfg.addrW < (0xFFFFFFFD : Addr).toNat + (4 : Len).toNat ∧
    (0x20001000 : Addr).toNat + (4 : Len).toNat ≤ 2 ^ s.cfg.addrW ∧
    ∃ r ∈ s.cfg.sideEffects, ∃ x, (0x20001000 : Addr).toNat ≤ x ∧
      x < (0x20001000 : Addr).toNat + (4 : Len).toNat ∧ r.base ≤ x ∧ x < r.base + r.size :=
  ⟨rfl, by decide, by decide, by decide, _, List.mem_singleton.2 rfl, 0x20001003, by decide⟩

theorem witness_NotInitialisedRefused : State.reset.inited = false := rfl

theorem witness_CommandsIdempotent :
    exec .enable (ready 2) = .next (ampSet (ready 2)) ∧ exec .disable (ready 2) = .next (ampClear (ready 2)) ∧
    exec .stop (ready 2) = .next (haltPlayback (ready 2)) ∧ exec (.play 1 0) (ready 2) = .next (ready 2) :=
  ⟨rfl, rfl, rfl, rfl⟩

theorem witness_FillIdleOrFinishedIsNoop :
    (2 : BitVec 16).toNat ≤ (filling .idle 6 0 []).blockWords ∧ (filling .idle 6 0 []).state = .idle ∧
    (2 : BitVec 16).toNat ≤ (filling .finished 6 6 []).blockWords ∧ (filling .finished 6 6 []).state = .finished := by
  decide

/-- `n` at both ends of its range, and both rows of silence. -/
theorem witness_FillWritesSilence :
    let s := filling .playing 6 6 []
    let t := filling .finishing 6 6 []
    (2 : BitVec 16).toNat ≤ s.blockWords ∧ s.state = .playing ∧ s.srcLen.toNat ≤ s.cursor.toNat ∧
    (0 : BitVec 16).toNat ≤ t.blockWords ∧ t.state = .finishing := by decide

theorem witness_FillPacksSamples :
    let s := filling .playing 5 4 []
    (2 : BitVec 16).toNat ≤ s.blockWords ∧ s.state = .playing ∧ s.cursor.toNat < s.srcLen.toNat := by decide

theorem witness_FillTooLargeRefused : (filling .playing 6 0 []).blockWords < (3 : BitVec 16).toNat := by decide

theorem witness_FillMakesOneTransition : (2 : BitVec 16).toNat ≤ (filling .playing 6 6 []).blockWords := by decide

theorem witness_FillCountsOfSession :
    let s := filling .playing 5 0 []
    s.state = .playing ∧ s.cursor = 0 ∧ 0 < s.srcLen.toNat ∧ 1 ≤ 2 := by decide

/-- The first half-word of a half, and the last one. -/
theorem witness_EmitSendsHalfWord :
    (¬(edge.txIdx = 0 ∧ edge.hsel = 0 ∧ edge.fillPend = true) ∧ edge.txIdx.toNat < edge.blockWords) ∧
    ¬(playing.txIdx = 0 ∧ playing.hsel = 0 ∧ playing.fillPend = true) ∧ playing.txIdx.toNat < playing.blockWords := by
  decide

theorem witness_LateFillUnderruns :
    let s := turn .transmitter late
    nextTurn s = .transmitter ∧ s.tph = .streaming ∧ s.txIdx = 0 ∧ s.hsel = 0 ∧ s.fillPend = true := by decide

theorem witness_EmitIgnoresSession :
    armed.tph ≠ .streaming ∧ enabled .transmitter playing = true ∧ emit playing = .next (emitHalfWord playing) :=
  ⟨by decide, by decide, rfl⟩

theorem witness_PositionGoesRound :
    playing.blockWords ≤ 32767 ∧ emit playing = .next (emitHalfWord playing) := ⟨by decide, rfl⟩

theorem witness_StepRunsAcceptedCommand :
    let s := turn .host (calling 0x2000100000040004 (ready 2))
    nextTurn s = .host ∧ s.hostPh = .ready ∧ s.halted = false ∧
    s.calls = { stores := [], desc := 0x2000100000040004 } :: [] ∧
    decodeCmd s.cfg.addrW 0x2000100000040004 = .instr (.play 0x20001000 4) := by decide

theorem witness_StepServesRequest :
    let s := turn .fillEngine playing
    nextTurn s = .fillEngine ∧ s.fillPend = true ∧ decodeFrq (frqBundle s) = .fill 1 1 := by decide

theorem witness_StepEmitsWhileStreaming :
    let s := turn .transmitter playing
    nextTurn s = .transmitter ∧ s.tph = .streaming := by decide

theorem witness_StepCompletesPlay :
    let s := turn .host drained
    nextTurn s = .host ∧ s.hostPh = .wait ∧ s.state = .finished := by decide

/-- One state for each agent, and the reset input. -/
theorem witness_StepHoldsWhenNotEnabled :
    enabled (nextTurn (turn .host playing)) (turn .host playing) = false ∧
    enabled (nextTurn (turn .fillEngine edge)) (turn .fillEngine edge) = false ∧
    enabled (nextTurn (turn .transmitter armed)) (turn .transmitter armed) = false ∧
    enabled (nextTurn (turn .reset playing)) (turn .reset playing) = false := by decide

theorem witness_ResetInputRestoresTable :
    let s := turn .reset (ready 2)
    nextTurn s = .reset ∧ s.hostPh = .ready := by decide

theorem witness_HaltedBlockIsStuck :
    let s := { initStep false State.reset with sched := [.host, .fillEngine, .transmitter] }
    s.halted = true ∧ s.hostPh = .ready ∧ s.tph = .stopped ∧ s.fillPend = false ∧
    Turn.reset ∉ [Turn.host, .fillEngine, .transmitter] ∧ s.sched = [.host, .fillEngine, .transmitter] ++ [] := by
  decide

theorem witness_PrimingHangsWithoutFill :
    let s := { armed with sched := [.host, .transmitter, .reset] }
    s.tph = .priming ∧ s.hostPh = .wait ∧ s.state ≠ .finished ∧ Turn.fillEngine ∉ [Turn.host, .transmitter, .reset] ∧
    s.sched = [.host, .transmitter, .reset] ++ [] := by decide

theorem ready_invariant : BlockInv (ready 2) := by constructor <;> decide
theorem armed_invariant : BlockInv armed := by constructor <;> decide
theorem playing_invariant : BlockInv playing := by constructor <;> decide
theorem late_invariant : BlockInv late := by constructor <;> decide
theorem edge_invariant : BlockInv edge := by constructor <;> decide
theorem finishing_invariant : BlockInv finishing := by constructor <;> decide
theorem drained_invariant : BlockInv drained := by constructor <;> decide

theorem turn_invariant (t : Turn) {s : State} (h : BlockInv s) : BlockInv (turn t s) := by
  cases h; constructor <;> assumption

theorem calling_invariant (d : Descriptor) {s : State} (h : BlockInv s) : BlockInv (calling d s) := by
  cases h; constructor <;> assumption

/-- One turn of each agent, and a reset, that answers a next state from an invariant state. -/
theorem witness_StepKeepsInvariants :
    (BlockInv (turn .fillEngine playing) ∧ look State.cursor (step (turn .fillEngine playing)) = some 1) ∧
    (BlockInv (turn .transmitter edge) ∧ look (fun s => s.out.length) (step (turn .transmitter edge)) = some 3) ∧
    (BlockInv (turn .host drained) ∧ look State.state (step (turn .host drained)) = some .idle) ∧
    BlockInv (turn .reset (ready 2)) ∧ look State.inited (step (turn .reset (ready 2))) = some false :=
  ⟨⟨turn_invariant _ playing_invariant, by decide⟩, ⟨turn_invariant _ edge_invariant, by decide⟩,
    ⟨turn_invariant _ drained_invariant, by decide⟩, turn_invariant _ ready_invariant, by decide⟩

theorem witness_OnlyUnderrunFaults :
    BlockInv (turn .transmitter late) ∧ step (turn .transmitter late) = .fault .underrun :=
  ⟨turn_invariant _ late_invariant, rfl⟩

theorem witness_OnlyCommandsRefused :
    BlockInv (turn .host (calling 0x6 (ready 2))) ∧
    step (turn .host (calling 0x6 (ready 2))) = .refused .reservedEncoding :=
  ⟨turn_invariant _ (calling_invariant _ ready_invariant), rfl⟩

/-- The four transitions of `STATE` (10_state.md R23), each taken from a state that meets the invariants. -/
theorem witness_StateTransitionsInOrder :
    (BlockInv (turn .host (calling 0x0000010000010004 (ready 2))) ∧
      look State.state (step (turn .host (calling 0x0000010000010004 (ready 2)))) = some .playing) ∧
    (BlockInv (turn .fillEngine playing) ∧ look State.state (step (turn .fillEngine playing)) = some .finishing) ∧
    (BlockInv (turn .fillEngine finishing) ∧ look State.state (step (turn .fillEngine finishing)) = some .finished) ∧
    BlockInv (turn .host drained) ∧ look State.state (step (turn .host drained)) = some .idle :=
  ⟨⟨turn_invariant _ (calling_invariant _ ready_invariant), by decide⟩, ⟨turn_invariant _ playing_invariant, by decide⟩,
    ⟨turn_invariant _ finishing_invariant, by decide⟩, turn_invariant _ drained_invariant, by decide⟩

theorem witness_SessionShutsThePort :
    playing.hostPh = .wait ∧ look State.cursor (step (turn .fillEngine playing)) = some 1 := by decide

theorem witness_BlockNeverWritesSource :
    look State.srcMem (step (turn .fillEngine playing)) = some playing.srcMem ∧
    look State.srcMem (step (turn .host
      { ready 2 with calls := [{ stores := [(0x100, 0x80)], desc := 0x2 }] })) = some [(0x100, 0x80)] := by decide

/-- Each agent writes something of its own, the host both in PLAY's arming and outside it. -/
theorem witness_AgentsWriteTheirOwn :
    look State.ampEn (step (turn .host (calling 0x2 (ready 2)))) = some true ∧
    look State.srcPtr (step (turn .host (calling 0x0000010000010004 (ready 2)))) = some 0x100 ∧
    look State.txbuf (step (turn .fillEngine playing)) = some [(0, 0x8000), (1, 0)] ∧
    look State.out (step (turn .transmitter playing)) = some [0x8000, 0] := by decide

/-- The last byte of the address space, at the last offset of the view. -/
theorem witness_SourceByteReadsMemory :
    let s := { ready 2 with srcPtr := 0xFFFFFFFC, srcLen := 4, srcMem := [(0xFFFFFFFF, 7)] }
    s.srcPtr.toNat + s.srcLen.toNat ≤ 2 ^ s.cfg.addrW ∧ 3 < s.srcLen.toNat ∧
    cellRead s.srcMem (s.srcPtr.toNat + 3) = some 7 := by decide

/-- Two stores to one address and one to the last address, before a PLAY that is accepted. -/
def storing : State :=
  turn .host { ready 2 with
    calls := [{ stores := [(0x100, 1), (0x100, 2), (0xFFFFFFFF, 3)], desc := 0x0000010000010004 }] }

theorem witness_AcceptedStoresAreInMemory :
    nextTurn storing = .host ∧ storing.hostPh = .ready ∧ storing.halted = false ∧
    look State.srcMem (step storing) = some [(0x100, 2), (0xFFFFFFFF, 3)] ∧ 0xFFFFFFFF < 2 ^ storing.cfg.addrW := by
  decide

/-- The last word of a block: the last two bytes of an even view, and the last byte of an odd one. -/
theorem witness_FillPacksListedBytes :
    let s := filling .playing 6 2 []
    let o := filling .playing 5 2 []
    ((2 : BitVec 16).toNat ≤ s.blockWords ∧ s.state = .playing ∧
      s.srcPtr.toNat + s.srcLen.toNat ≤ 2 ^ s.cfg.addrW ∧ 1 < (2 : BitVec 16).toNat ∧
      cellRead s.srcMem (s.srcPtr.toNat + s.cursor.toNat + 2 * 1) = some 5 ∧
      s.cursor.toNat + 2 * 1 + 1 < s.srcLen.toNat ∧
      cellRead s.srcMem (s.srcPtr.toNat + s.cursor.toNat + 2 * 1 + 1) = some 6) ∧
    (2 : BitVec 16).toNat ≤ o.blockWords ∧ o.state = .playing ∧
      o.srcPtr.toNat + o.srcLen.toNat ≤ 2 ^ o.cfg.addrW ∧
      cellRead o.srcMem (o.srcPtr.toNat + o.cursor.toNat + 2 * 1) = some 5 ∧
      o.cursor.toNat + 2 * 1 + 1 = o.srcLen.toNat := by decide

theorem witness_FillAndEmitNeverShareHalf :
    BlockInv playing ∧ playing.tph = .streaming ∧ playing.fillPend = true ∧
    emit playing = .next (emitHalfWord playing) ∧ 0 < playing.blockWords :=
  ⟨playing_invariant, rfl, rfl, rfl, by decide⟩

theorem witness_ReadyPortEndsRun : BlockInv (ready 2) ∧ (ready 2).calls = [] ∧ cmdReady (ready 2) = true :=
  ⟨ready_invariant, rfl, rfl⟩

theorem witness_NoDeadlock : BlockInv armed ∧ BlockInv playing := ⟨armed_invariant, playing_invariant⟩

theorem witness_SessionCanAlwaysEnd :
    BlockInv armed ∧ armed.hostPh = .wait ∧ BlockInv drained ∧ drained.hostPh = .wait :=
  ⟨armed_invariant, rfl, drained_invariant, rfl⟩

/-- The longest view, up to the last address, with a region of side effects that ends where the view begins. -/
theorem witness_PlayOpensSession :
    let s := { ready 2 with cfg := { cfgOf 2 with sideEffects := [{ base := 0xFFFF0000, size := 1 }] } }
    s.inited = true ∧ (65535 : Len) ≠ 0 ∧ (0xFFFF0001 : Addr).toNat + (65535 : Len).toNat ≤ 2 ^ s.cfg.addrW ∧
    ∀ r ∈ s.cfg.sideEffects, ∀ x, (0xFFFF0001 : Addr).toNat ≤ x →
      x < (0xFFFF0001 : Addr).toNat + (65535 : Len).toNat → ¬(r.base ≤ x ∧ x < r.base + r.size) := by
  refine ⟨rfl, by decide, by decide, fun r hr x hx _ => ?_⟩
  obtain rfl := List.mem_singleton.1 hr
  have : (0xFFFF0001 : Addr).toNat = 0xFFFF0001 := rfl
  simp only
  omega

theorem armed_session : SessionAt [] 0 0 armed := by
  refine ⟨rfl, by decide, rfl, rfl, rfl, rfl, fun b i h => absurd h (Nat.not_lt_zero b), fun _ => rfl, ?_⟩
  exact .inl ⟨rfl, rfl, rfl, rfl⟩

theorem playing_session : SessionAt [] 1 1 playing := by
  refine ⟨rfl, by decide, rfl, rfl, rfl, rfl, fun b i hb hf hi => ?_, fun _ => rfl, .inr ⟨rfl, rfl⟩⟩
  obtain rfl : b = 0 := by omega
  obtain rfl : i = 0 := Nat.lt_one_iff.1 hi
  rfl

theorem edge_session : SessionAt [] 2 2 edge := by
  refine ⟨rfl, by decide, rfl, rfl, rfl, rfl, fun b i hb hf hi => ?_, fun h => absurd h (by decide), .inr ⟨rfl, rfl⟩⟩
  obtain rfl : i = 0 := Nat.lt_one_iff.1 hi
  obtain rfl | rfl : b = 0 ∨ b = 1 := by omega
  · rfl
  · rfl

theorem finishing_session : SessionAt [] 3 2 finishing := by
  refine ⟨rfl, by decide, rfl, rfl, rfl, rfl, fun b i hb hf hi => ?_, fun _ => rfl, .inr ⟨rfl, rfl⟩⟩
  obtain rfl : i = 0 := Nat.lt_one_iff.1 hi
  obtain rfl | rfl : b = 0 ∨ b = 1 := by omega
  · rfl
  · rfl

theorem drained_session : SessionAt [] 3 3 drained := by
  refine ⟨rfl, by decide, rfl, rfl, rfl, rfl, fun b i hb hf hi => ?_, fun h => absurd h (by decide), .inr ⟨rfl, rfl⟩⟩
  obtain rfl : i = 0 := Nat.lt_one_iff.1 hi
  obtain rfl | rfl : b = 1 ∨ b = 2 := by omega
  · rfl
  · rfl

theorem turn_session (t : Turn) {before : List HalfWord} {m f : Nat} {s : State} (h : SessionAt before m f s) :
    SessionAt before m f (turn t s) := by
  cases h; constructor <;> assumption

/-- A FILL from priming, a FILL while streaming, an EMIT, each of which leaves the session under way. -/
theorem witness_StepKeepsSession :
    (BlockInv (turn .fillEngine armed) ∧ InSession [] (turn .fillEngine armed) ∧
      look State.hostPh (step (turn .fillEngine armed)) = some .wait) ∧
    (BlockInv (turn .fillEngine playing) ∧ InSession [] (turn .fillEngine playing) ∧
      look State.hostPh (step (turn .fillEngine playing)) = some .wait) ∧
    BlockInv (turn .transmitter edge) ∧ InSession [] (turn .transmitter edge) ∧
      look State.hostPh (step (turn .transmitter edge)) = some .wait :=
  ⟨⟨turn_invariant _ armed_invariant, ⟨_, _, turn_session _ armed_session⟩, by decide⟩,
    ⟨turn_invariant _ playing_invariant, ⟨_, _, turn_session _ playing_session⟩, by decide⟩,
    turn_invariant _ edge_invariant, ⟨_, _, turn_session _ edge_session⟩, by decide⟩

theorem witness_FinishedMeansWholeSourceSent :
    BlockInv drained ∧ InSession [] drained ∧ drained.state = .finished :=
  ⟨drained_invariant, ⟨_, _, drained_session⟩, rfl⟩

theorem witness_FinishedSetOnTime :
    let s := turn .fillEngine finishing
    BlockInv s ∧ InSession [] s ∧ s.state = .finishing ∧ nextTurn s = .fillEngine ∧ s.fillPend = true ∧
      look State.state (step s) = some .finished :=
  ⟨turn_invariant _ finishing_invariant, ⟨_, _, turn_session _ finishing_session⟩, rfl, rfl, rfl, by decide⟩

theorem witness_FinishedStaysSilent :
    let s := turn .transmitter drained
    BlockInv s ∧ InSession [] s ∧ s.state = .finished ∧ look State.hostPh (step s) = some .wait :=
  ⟨turn_invariant _ drained_invariant, ⟨_, _, turn_session _ drained_session⟩, rfl, by decide⟩

theorem witness_StaleWordsNeverSent :
    BlockInv edge ∧ InSession [] edge ∧ edge.out.length = ([] : List HalfWord).length + 2 ∧ edge.tph = .streaming ∧
    emit edge = .next (emitHalfWord edge) :=
  ⟨edge_invariant, ⟨_, _, edge_session⟩, rfl, rfl, rfl⟩

end Sys2Proof.Tests
end

