-- ==== Sys2Proof/Proofs/State.lean ====
section
/-! The state of the block (10_state.md): what reset leaves, the invariants of R40, and the transitions of `STATE`. -/

namespace Sys2Proof.Machine

/-! ### The configuration -/

theorem bufWords_bounds {c : Config} (h : c.legal = true) :
    c.bufWords % 2 = 0 ∧ 2 ≤ c.bufWords ∧ c.bufWords ≤ 65534 := by
  simp only [Config.legal, Bool.and_eq_true, beq_iff_eq, decide_eq_true_eq] at h
  obtain ⟨⟨⟨⟨heven, hlow⟩, hhigh⟩, -⟩, -⟩ := h
  exact ⟨heven, hlow, hhigh⟩

theorem blockWords_pos {s : State} (h : s.cfg.legal = true) : 0 < s.blockWords := by
  have := bufWords_bounds h
  simp only [State.blockWords, Config.blockWords]
  omega

theorem blockWords_le {s : State} (h : s.cfg.legal = true) : s.blockWords ≤ 32767 := by
  have := bufWords_bounds h
  simp only [State.blockWords, Config.blockWords]
  omega

/-- The `n = B` of a raised request fits its 16 bits (30_encoding.md R69). -/
theorem toNat_ofNat_blockWords {s : State} (h : s.cfg.legal = true) :
    (BitVec.ofNat 16 s.blockWords).toNat = s.blockWords := by
  have := blockWords_le h
  rw [BitVec.toNat_ofNat]
  omega

/-- A block of at most `B` words lies inside `TXBUF`, whichever half it fills (R35). -/
theorem halfBase_add_le_bufWords (s : State) (half : BitVec 1) {n : Nat} (hn : n ≤ s.blockWords) :
    halfBase s half + n ≤ s.cfg.bufWords := by
  have hB : 2 * s.blockWords ≤ s.cfg.bufWords := by
    simp only [State.blockWords, Config.blockWords]; omega
  rw [halfBase_eq]
  split <;> omega

/-! ### Reset -/

/-- A block at its reset values meets the invariants for every legal configuration and every canonical source memory,
whatever the model's other fields hold. -/
theorem blockInv_reset_with {c : Config} {m : List Host.Cell} (hc : c.legal = true) (hm : Memory.wf c m)
    (frqN : BitVec 16) (calls : List HostCall) (sched : List Turn) (turns initDraws epoch : Nat) :
    BlockInv { State.reset with
      frqN := frqN, cfg := c, srcMem := m, calls := calls, sched := sched, turns := turns, initDraws := initDraws
      epoch := epoch } where
  cfg_legal := hc
  txbuf_canonical := ⟨.nil, nofun⟩
  source_canonical := hm
  view_fits := Nat.zero_le _
  index_in_half := blockWords_pos hc
  request_full := nofun
  cursor_in_view := le_rfl
  ready_quiet _ := ⟨rfl, rfl, rfl⟩
  session_live hs := absurd rfl hs
  wait_session := nofun
  priming_fresh := nofun
  pending_half := nofun
  drained_cursor _ := rfl
  cursor_even := .inr rfl
  halted_uninitialised _ := rfl

theorem BlockInv.applyReset {s : State} (h : BlockInv s) : BlockInv (applyReset s) :=
  blockInv_reset_with h.cfg_legal h.source_canonical _ _ _ _ _ _

/-! ### The host's steps -/

theorem BlockInv.takeTurn {s : State} (h : BlockInv s) : BlockInv (takeTurn s) := { h with }

theorem BlockInv.latchCall {s : State} (h : BlockInv s) (c : HostCall) (rest : List HostCall) :
    BlockInv (latchCall c rest s) :=
  { h with source_canonical := storeCells_canonical s.cfg c.stores s.srcMem h.source_canonical }

/-- With no session the amplifier, `INITED`, `HALTED` and the count of draws are free, but for R40 item 8. -/
theorem BlockInv.quiet {s : State} (h : BlockInv s) {ampEn inited halted : Bool} {initDraws : Nat}
    (hh : halted = true → inited = false) :
    BlockInv { s with
      ampEn := ampEn, inited := inited, halted := halted, initDraws := initDraws
      state := .idle, tph := .stopped, fillPend := false, hostPh := .ready } :=
  { h with
    request_full := nofun
    ready_quiet := fun _ => ⟨rfl, rfl, rfl⟩
    session_live := fun hs => absurd rfl hs
    wait_session := nofun
    priming_fresh := nofun
    pending_half := nofun
    drained_cursor := nofun
    halted_uninitialised := hh }

/-- R40 item 2 as an equation: a state with a ready port is already quiet. -/
theorem BlockInv.eq_quiet_of_ready {s : State} (h : BlockInv s) (hr : s.hostPh = .ready) :
    s = { s with state := .idle, tph := .stopped, fillPend := false, hostPh := .ready } := by
  obtain ⟨hstate, htph, hpend⟩ := h.ready_quiet hr
  rw [← hstate, ← htph, ← hpend, ← hr]

theorem BlockInv.ampSet {s : State} (h : BlockInv s) (hr : s.hostPh = .ready) : BlockInv (ampSet s) := by
  rw [h.eq_quiet_of_ready hr]
  exact h.quiet h.halted_uninitialised

theorem BlockInv.ampClear {s : State} (h : BlockInv s) (hr : s.hostPh = .ready) : BlockInv (ampClear s) := by
  rw [h.eq_quiet_of_ready hr]
  exact h.quiet h.halted_uninitialised

theorem BlockInv.haltPlayback {s : State} (h : BlockInv s) (hr : s.hostPh = .ready) : BlockInv (haltPlayback s) := by
  rw [h.eq_quiet_of_ready hr]
  exact h.quiet h.halted_uninitialised

theorem BlockInv.completePlay {s : State} (h : BlockInv s) : BlockInv (completePlay s) :=
  h.quiet h.halted_uninitialised

/-- INIT of a block that is neither initialised nor halted, for either draw (40_lifecycle_commands.md R77). -/
theorem BlockInv.initStep {s : State} (h : BlockInv s) (hr : s.hostPh = .ready) (hi : s.inited = false)
    (hl : s.halted = false) (initOk : Bool) (initDraws : Nat) :
    BlockInv (initStep initOk { s with initDraws := initDraws }) := by
  rw [h.eq_quiet_of_ready hr]
  cases initOk with
  | true => exact h.quiet fun hh => absurd (hl.symm.trans hh) Bool.false_ne_true
  | false => exact h.quiet fun _ => hi

/-- PLAY's arming opens a session with a fresh prefill request (40_lifecycle_commands.md R80). -/
theorem BlockInv.armPlay {s : State} (h : BlockInv s) (hi : s.inited = true) {addr : Addr} {len : Len}
    (hv : addr.toNat + len.toNat ≤ 2 ^ s.cfg.addrW) : BlockInv (armPlay addr len s) :=
  { h with
    view_fits := hv
    index_in_half := blockWords_pos h.cfg_legal
    request_full := fun _ => toNat_ofNat_blockWords h.cfg_legal
    cursor_in_view := Nat.zero_le _
    ready_quiet := nofun
    session_live := fun _ => ⟨rfl, hi, rfl, nofun⟩
    wait_session := fun _ => nofun
    priming_fresh := fun _ => ⟨rfl, rfl, rfl, rfl, rfl, rfl, rfl⟩
    pending_half := nofun
    drained_cursor := nofun
    cursor_even := .inl rfl }

theorem decodeCmd_ne_fill {w : Nat} {d : Descriptor} {i : Instr} (h : decodeCmd w d = .instr i) (half : BitVec 1)
    (n : BitVec 16) : i ≠ .fill half n := by
  rcases decodeCmd_command h with rfl | rfl | rfl | ⟨a, l, rfl⟩ | rfl <;> exact nofun

/-- A command accepted at a ready port that is not halted keeps the invariants. -/
theorem BlockInv.command {i : Instr} {s t : State} (h : BlockInv s) (hr : s.hostPh = .ready) (hl : s.halted = false)
    (hf : ∀ half n, i ≠ .fill half n) (hx : exec i s = .next t) : BlockInv t := by
  rcases exec_command_cases hf hx with ⟨-, hi, rfl⟩ | ⟨hi, hcmd⟩
  · exact h.initStep hr hi hl _ _
  · rcases hcmd with ⟨-, rfl⟩ | ⟨-, rfl⟩ | ⟨-, rfl⟩ | ⟨a, -, rfl⟩ | ⟨a, l, -, -, hv, rfl⟩
    · exact h.ampSet hr
    · exact h.ampClear hr
    · exact h.haltPlayback hr
    · exact h
    · exact h.armPlay hi hv

/-! ### The fill engine's steps -/

/-- A pending request is a session's: the host waits, and the session is live (R40 items 2 and 3). -/
theorem BlockInv.pending_live {s : State} (h : BlockInv s) (hp : s.fillPend = true) :
    s.hostPh = .wait ∧ s.state ≠ .idle ∧ s.tph ≠ .stopped := by
  have hw : s.hostPh = .wait := by
    cases hs : s.hostPh with
    | wait => rfl
    | ready =>
      obtain ⟨-, -, hq⟩ := h.ready_quiet hs
      exact absurd (hq.symm.trans hp) Bool.false_ne_true
  obtain ⟨-, -, -, ht⟩ := h.session_live (h.wait_session hw)
  exact ⟨hw, h.wait_session hw, ht⟩

/-- The end of a FILL leaves a live transmitter streaming (41_fill_engine.md R100). -/
theorem endFill_tph_of_live {s : State} (h : s.tph ≠ .stopped) : (endFill s).tph = .streaming := by
  rw [endFill_tph]
  cases ht : s.tph with
  | stopped => exact absurd ht h
  | priming => rfl
  | streaming => rfl

/-- What a FILL of a pending request has to keep: the words canonical, `CURSOR` in the view, even or at its end, and
at its end once `STATE` has left Playing. -/
theorem BlockInv.endFill {s : State} (h : BlockInv s) (hp : s.fillPend = true) {words : List (Nat × Word)}
    {cursor : Len} {state : PlaybackState} (hwords : TxBuf.wf s.cfg words) (hcur : cursor.toNat ≤ s.srcLen.toNat)
    (heven : cursor.toNat % 2 = 0 ∨ cursor = s.srcLen) (hstate : state ≠ .idle)
    (hdrained : state = .finishing ∨ state = .finished → cursor = s.srcLen) :
    BlockInv (endFill { s with txbuf := words, cursor := cursor, state := state }) := by
  obtain ⟨hwait, hs, htph⟩ := h.pending_live hp
  obtain ⟨-, hinit, hamp, -⟩ := h.session_live hs
  have hstream : (Machine.endFill { s with txbuf := words, cursor := cursor, state := state }).tph = .streaming :=
    endFill_tph_of_live htph
  exact { h with
    txbuf_canonical := hwords
    request_full := nofun
    cursor_in_view := hcur
    ready_quiet := fun hr => nomatch hwait.symm.trans hr
    session_live := fun _ => ⟨hwait, hinit, hamp, hstream ▸ nofun⟩
    wait_session := fun _ => hstate
    priming_fresh := fun ht => nomatch hstream.symm.trans ht
    pending_half := nofun
    drained_cursor := hdrained
    cursor_even := heven }

/-- Serving a pending request keeps the invariants, in each row of 41_fill_engine.md R91. -/
theorem BlockInv.fill {s : State} (h : BlockInv s) (hp : s.fillPend = true) (half : BitVec 1) {n : Nat}
    (hn : n ≤ s.blockWords) : BlockInv (Machine.endFill (fillBody half n s)) := by
  obtain ⟨-, hlive, -⟩ := h.pending_live hp
  have hblock := halfBase_add_le_bufWords s half hn
  have hzero := zeroFill_canonical (halfBase s half) n s h.txbuf_canonical hblock
  rcases fillBody_cases half n s with ⟨hs, heq⟩ | ⟨hs, hc, heq⟩ | ⟨hs, hc, heq⟩ | ⟨hs, heq⟩ <;> rw [heq]
  · exact h.endFill hp h.txbuf_canonical h.cursor_in_view h.cursor_even hlive h.drained_cursor
  · have hcur := dataFill_cursor (halfBase s half) n s h.cursor_in_view
    have heven : s.cursor.toNat % 2 = 0 := h.cursor_even.resolve_right fun he => by rw [he] at hc; omega
    rw [dataFill_eq]
    refine h.endFill hp (dataFill_canonical _ n s h.txbuf_canonical hblock) (by omega) ?_ hlive ?_
    · by_cases hend : s.cursor.toNat + 2 * n ≤ s.srcLen.toNat
      · exact .inl (by omega)
      · exact .inr (BitVec.eq_of_toNat_eq (by omega))
    · rw [hs]; exact nofun
  · have hend : s.cursor = s.srcLen := BitVec.eq_of_toNat_eq (le_antisymm h.cursor_in_view hc)
    rw [zeroFill_eq]
    exact h.endFill hp hzero h.cursor_in_view (.inr hend) nofun fun _ => hend
  · have hend : s.cursor = s.srcLen := h.drained_cursor (.inl hs)
    rw [zeroFill_eq]
    exact h.endFill hp hzero h.cursor_in_view (.inr hend) nofun fun _ => hend

/-! ### The transmitter's steps -/

theorem one_sub_ne_self (b : BitVec 1) : 1 - b ≠ b := by
  revert b; decide

theorem eq_one_sub_of_ne {a b : BitVec 1} (h : a ≠ b) : a = 1 - b := by
  revert a b; decide

/-- R40 item 5 after an EMIT: the half that a request pends for is not the one under the position, or the position has
just entered it. -/
theorem emitHalfWord_pending_half {s : State} (h : BlockInv s) (hstream : s.tph = .streaming)
    (hp : (emitHalfWord s).fillPend = true) :
    (emitHalfWord s).fillHalf ≠ (emitHalfWord s).txHalf ∨
      ((emitHalfWord s).fillHalf = (emitHalfWord s).txHalf ∧ (emitHalfWord s).txIdx = 0 ∧
        (emitHalfWord s).hsel = 0) := by
  simp only [emitHalfWord_fillPend, emitHalfWord_fillHalf, emitHalfWord_txHalf, emitHalfWord_txIdx,
    emitHalfWord_hsel] at hp ⊢
  by_cases hb : halfBegins s = true
  · obtain ⟨-, hh⟩ := (halfBegins_iff s).1 hb
    rw [if_pos hb, if_neg fun hwrap => hwrap.1 hh]
    exact .inl (one_sub_ne_self _)
  · rw [if_neg hb] at hp
    have hne : s.fillHalf ≠ s.txHalf := (h.pending_half hstream hp).resolve_right
      fun ⟨_, hi, hh⟩ => hb ((halfBegins_iff s).2 ⟨hi, hh⟩)
    rw [if_neg hb]
    by_cases hwrap : s.hsel ≠ 0 ∧ s.txIdx.toNat + 1 = s.blockWords
    · obtain ⟨hh, hlast⟩ := hwrap
      rw [if_pos ⟨hh, hlast⟩, if_neg hh, if_neg hh, if_pos hlast]
      exact .inr ⟨eq_one_sub_of_ne hne, rfl, rfl⟩
    · rw [if_neg hwrap]
      exact .inl hne

/-- An EMIT keeps the invariants. -/
theorem BlockInv.emitHalfWord {s : State} (h : BlockInv s) (hstream : s.tph = .streaming) :
    BlockInv (emitHalfWord s) := by
  have hpending := emitHalfWord_pending_half h hstream
  obtain ⟨-, hidx⟩ := ringPosition_emitHalfWord s h.index_in_half (blockWords_le h.cfg_legal)
  have hfull : (Machine.emitHalfWord s).fillPend = true → (Machine.emitHalfWord s).frqN.toNat = s.blockWords := by
    rw [emitHalfWord_fillPend, emitHalfWord_frqN]
    split
    · exact fun _ => toNat_ofNat_blockWords h.cfg_legal
    · exact h.request_full
  have hquiet : s.hostPh ≠ .ready := fun hr => by
    obtain ⟨-, hstop, -⟩ := h.ready_quiet hr
    exact nomatch hstop.symm.trans hstream
  rw [emitHalfWord_eq] at hpending hidx hfull ⊢
  exact { h with
    index_in_half := hidx
    request_full := hfull
    ready_quiet := fun hr => absurd hr hquiet
    priming_fresh := fun ht => nomatch hstream.symm.trans ht
    pending_half := fun _ => hpending }

/-! ### Every step -/

theorem BlockInv.runTurn {w : Turn} {u t : State} (h : BlockInv u) (hx : runTurn w u = .next t) : BlockInv t := by
  rcases runTurn_cases hx with rfl | ⟨-, hr, hl, c, rest, i, -, hd, hexec⟩ | ⟨-, -, -, rfl⟩ | ⟨-, hp, hn, rfl⟩ |
    ⟨-, hs, -, -, rfl⟩ | ⟨-, -, rfl⟩
  · exact h
  · exact (h.latchCall c rest).command hr hl (decodeCmd_ne_fill hd) hexec
  · exact h.completePlay
  · exact h.fill hp _ hn
  · exact h.emitHalfWord hs
  · exact h.applyReset

/-! ### The transitions of `STATE` -/

/-- A command taken in Idle leaves `STATE` there, or is a PLAY that starts playing (R23). -/
theorem exec_command_state {i : Instr} {s t : State} (hs : s.state = .idle) (hf : ∀ half n, i ≠ .fill half n)
    (hx : exec i s = .next t) : t.state = .idle ∨ t.state = .playing := by
  rcases exec_command_cases hf hx with ⟨-, -, rfl⟩ | ⟨-, hcmd⟩
  · cases initDraw s with
    | true => exact .inl rfl
    | false => exact .inl hs
  · rcases hcmd with ⟨-, rfl⟩ | ⟨-, rfl⟩ | ⟨-, rfl⟩ | ⟨a, -, rfl⟩ | ⟨a, l, -, -, -, rfl⟩
    · exact .inl hs
    · exact .inl hs
    · exact .inl rfl
    · exact .inl hs
    · exact .inr rfl

/-- A FILL leaves `STATE`, or moves it one on towards Finished (41_fill_engine.md R101). -/
theorem endFill_fillBody_state (half : BitVec 1) (n : Nat) (s : State) :
    (endFill (fillBody half n s)).state = s.state ∨
      (s.state = .playing ∧ (endFill (fillBody half n s)).state = .finishing) ∨
      (s.state = .finishing ∧ (endFill (fillBody half n s)).state = .finished) := by
  rw [endFill_state]
  rcases fillBody_cases half n s with ⟨-, heq⟩ | ⟨-, -, heq⟩ | ⟨hs, -, heq⟩ | ⟨hs, heq⟩ <;> rw [heq]
  · exact .inl rfl
  · rw [dataFill_eq]; exact .inl rfl
  · exact .inr (.inl ⟨hs, rfl⟩)
  · exact .inr (.inr ⟨hs, rfl⟩)

theorem runTurn_state_transition {w : Turn} {u t : State} (h : BlockInv u) (hx : runTurn w u = .next t) :
    t.state = u.state ∨
    (u.state = .idle ∧ t.state = .playing ∧ w = .host) ∨
    (u.state = .playing ∧ t.state = .finishing ∧ w = .fillEngine) ∨
    (u.state = .finishing ∧ t.state = .finished ∧ w = .fillEngine) ∨
    (u.state = .finished ∧ t.state = .idle ∧ w = .host) := by
  rcases runTurn_cases hx with rfl | ⟨hw, hr, -, c, rest, i, -, hd, hexec⟩ | ⟨hw, -, hs, rfl⟩ | ⟨hw, -, -, rfl⟩ |
    ⟨-, -, -, -, rfl⟩ | ⟨-, hr, rfl⟩
  · exact .inl rfl
  · obtain ⟨hidle, -, -⟩ := h.ready_quiet hr
    rcases exec_command_state (s := latchCall c rest u) hidle (decodeCmd_ne_fill hd) hexec with ht | ht
    · exact .inl (ht.trans hidle.symm)
    · exact .inr (.inl ⟨hidle, ht, hw⟩)
  · exact .inr (.inr (.inr (.inr ⟨hs, rfl, hw⟩)))
  · rcases endFill_fillBody_state u.fillHalf u.frqN.toNat u with ht | ⟨hs, ht⟩ | ⟨hs, ht⟩
    · exact .inl ht
    · exact .inr (.inr (.inl ⟨hs, ht, hw⟩))
    · exact .inr (.inr (.inr (.inl ⟨hs, ht, hw⟩)))
  · exact .inl (emitHalfWord_state u)
  · obtain ⟨hidle, -, -⟩ := h.ready_quiet hr
    exact .inl hidle.symm

/-! ### The obligations -/

/-- Settles O38: the turn's bookkeeping and each thing its taker can do keep the invariants. -/
theorem stepKeepsInvariants : Obligations.StepKeepsInvariants :=
  fun _ _ h hstep => h.takeTurn.runTurn hstep

/-- Settles O41, by what the taker of the turn does to `STATE`. -/
theorem stateTransitionsInOrder : Obligations.StateTransitionsInOrder :=
  fun s _ h hstep => runTurn_state_transition (u := takeTurn s) h.takeTurn hstep

/-- Settles O34: each element by computation; no word of `TXBUF` is listed. -/
theorem resetTableValues : Obligations.ResetTableValues := by
  have hstatus : statusWord State.reset = 0 := by decide
  exact ⟨rfl, rfl, rfl, rfl, rfl, rfl, rfl, rfl, rfl, rfl, rfl, rfl, rfl, rfl, fun _ => rfl, hstatus⟩

/-- Settles O37: the reset state is the reset values with the standard configuration and an empty source memory. -/
theorem resetMeetsInvariants : Obligations.ResetMeetsInvariants :=
  blockInv_reset_with (by decide) reset_source_canonical _ _ _ _ _ _

end Sys2Proof.Machine
end

section
/-! Source memory (20_memory.md): the address of a byte of the view, and which steps leave the memory and the view
alone. -/

namespace Sys2Proof.Machine

/-! ### The bytes of the view -/

theorem addrBits_of_lt {c : Config} {a : Nat} (h : a < 2 ^ c.addrW) : addrBits c a = a :=
  Nat.mod_eq_of_lt h

/-- A view that does not wrap is read at its own addresses (R46, R47). -/
theorem sourceByte_of_listed {s : State} {k : Nat} {b : Byte} (ha : s.srcPtr.toNat + k < 2 ^ s.cfg.addrW)
    (hb : cellRead s.srcMem (s.srcPtr.toNat + k) = some b) : sourceByte s k = b :=
  memRead_of_listed ((congrArg (cellRead s.srcMem) (addrBits_of_lt ha)).trans hb)

/-! ### What a FILL leaves -/

/-- A FILL's state-dependent part touches `TXBUF`, `CURSOR` and `STATE` only (41_fill_engine.md R91). -/
theorem fillBody_eq (half : BitVec 1) (n : Nat) (s : State) :
    fillBody half n s =
      { s with
        txbuf := (fillBody half n s).txbuf, cursor := (fillBody half n s).cursor
        state := (fillBody half n s).state } := by
  rcases fillBody_cases half n s with ⟨-, heq⟩ | ⟨-, -, heq⟩ | ⟨-, -, heq⟩ | ⟨-, heq⟩ <;> rw [heq]
  · rw [dataFill_eq]
  · rw [zeroFill_eq]
  · rw [zeroFill_eq]

@[simp] theorem fillBody_srcMem (half : BitVec 1) (n : Nat) (s : State) : (fillBody half n s).srcMem = s.srcMem := by
  rw [fillBody_eq]

/-! ### What a command leaves -/

@[simp] theorem initStep_srcMem (initOk : Bool) (s : State) : (initStep initOk s).srcMem = s.srcMem := by
  cases initOk <;> rfl

/-- No command writes source memory (R45). -/
theorem exec_command_srcMem {i : Instr} {s t : State} (hf : ∀ half n, i ≠ .fill half n) (hx : exec i s = .next t) :
    t.srcMem = s.srcMem := by
  rcases exec_command_cases hf hx with ⟨-, -, rfl⟩ | ⟨-, hcmd⟩
  · exact initStep_srcMem _ _
  · rcases hcmd with ⟨-, rfl⟩ | ⟨-, rfl⟩ | ⟨-, rfl⟩ | ⟨a, -, rfl⟩ | ⟨a, l, -, -, -, rfl⟩
    · exact ampSet_srcMem s
    · exact ampClear_srcMem s
    · exact haltPlayback_srcMem s
    · rfl
    · exact armPlay_srcMem a l s

/-! ### What a turn leaves -/

/-- Source memory moves at an accepted call alone, and by that call's stores alone (log 5). -/
theorem runTurn_srcMem {w : Turn} {u t : State} (hx : runTurn w u = .next t) :
    t.srcMem = u.srcMem ∨
    (w = .host ∧ u.hostPh = .ready ∧
      ∃ c rest, u.calls = c :: rest ∧ t.srcMem = storeCells u.cfg u.srcMem c.stores) := by
  rcases runTurn_cases hx with rfl | ⟨hw, hr, -, c, rest, i, hcalls, hd, hexec⟩ | ⟨-, -, -, rfl⟩ | ⟨-, -, -, rfl⟩ |
    ⟨-, -, -, -, rfl⟩ | ⟨-, -, rfl⟩
  · exact .inl rfl
  · have hmem : t.srcMem = storeCells u.cfg u.srcMem c.stores :=
      exec_command_srcMem (decodeCmd_ne_fill hd) hexec
    exact .inr ⟨hw, hr, c, rest, hcalls, hmem⟩
  · exact .inl (completePlay_srcMem u)
  · exact .inl ((endFill_srcMem _).trans (fillBody_srcMem _ _ u))
  · exact .inl (emitHalfWord_srcMem u)
  · exact .inl (applyReset_srcMem u)

/-- Everything a turn can move while the host waits (R57): what is not listed stays, the view, source memory and the
calls at the port among it. -/
theorem runTurn_frame_of_wait {w : Turn} {u t : State} (hwait : u.hostPh = .wait) (hx : runTurn w u = .next t) :
    t = { u with
      cursor := t.cursor, state := t.state, txbuf := t.txbuf, ampEn := t.ampEn, hostPh := t.hostPh, tph := t.tph
      fillPend := t.fillPend, fillHalf := t.fillHalf, txHalf := t.txHalf, txIdx := t.txIdx, hsel := t.hsel
      out := t.out, frqN := t.frqN } := by
  rcases runTurn_cases hx with rfl | ⟨-, hr, -⟩ | ⟨-, -, -, rfl⟩ | ⟨-, -, -, rfl⟩ | ⟨-, -, -, -, rfl⟩ | ⟨-, hr, -⟩
  · rfl
  · exact nomatch hwait.symm.trans hr
  · rfl
  · rw [fillBody_eq]; rfl
  · rw [emitHalfWord_eq]
  · exact nomatch hwait.symm.trans hr

/-! ### The obligations -/

/-- Settles O42: the fields named are outside what a turn can move while the host waits. -/
theorem sessionShutsThePort : Obligations.SessionShutsThePort := by
  intro s t hwait hstep
  rw [runTurn_frame_of_wait (u := takeTurn s) hwait hstep]
  exact ⟨rfl, rfl, rfl, rfl, rfl, rfl, rfl⟩

/-- Settles O43, by what the taker of the turn does to source memory. -/
theorem blockNeverWritesSource : Obligations.BlockNeverWritesSource :=
  fun s _ hstep => runTurn_srcMem (u := takeTurn s) hstep

/-- Settles O55: the view's addresses have `ADDR_W` bits, so none is reduced. -/
theorem sourceByteReadsMemory : Obligations.SourceByteReadsMemory :=
  fun _ _ _ hview hk hb => sourceByte_of_listed (by omega) hb

end Sys2Proof.Machine
end

section
/-! The encodings (30_encoding.md): the fields of a descriptor, the decoder's answers and their converse, the opcode
map and the reserved descriptors, the request bundle and the `STATUS` word, and the port that accepts a call. -/

namespace Sys2Proof

/-! ### The fields of a descriptor (R64) -/

theorem toNat_descOpc (d : Descriptor) : (descOpc d).toNat = d.toNat % 2 ^ 4 := by
  simp [descOpc]

theorem toNat_descRsv (d : Descriptor) : (descRsv d).toNat = d.toNat / 2 ^ 4 % 2 ^ 12 := by
  simp [descRsv, Nat.shiftRight_eq_div_pow]

theorem toNat_descLen (d : Descriptor) : (descLen d).toNat = d.toNat / 2 ^ 16 % 2 ^ 16 := by
  simp [descLen, Nat.shiftRight_eq_div_pow]

theorem toNat_descAddr (d : Descriptor) : (descAddr d).toNat = d.toNat / 2 ^ 32 := by
  have hd := d.isLt
  rw [descAddr, BitVec.extractLsb'_toNat, Nat.shiftRight_eq_div_pow]
  omega

section
variable (opc : BitVec 4) (len : Len) (addr : Addr)

@[simp] theorem descOpc_encodeDescriptor : descOpc (encodeDescriptor opc len addr) = opc := by
  apply BitVec.eq_of_toNat_eq
  rw [toNat_descOpc, Laws.toNat_encodeDescriptor]
  omega

@[simp] theorem descRsv_encodeDescriptor : descRsv (encodeDescriptor opc len addr) = 0 := by
  apply BitVec.eq_of_toNat_eq
  rw [toNat_descRsv, Laws.toNat_encodeDescriptor, show (0 : BitVec 12).toNat = 0 from rfl]
  omega

@[simp] theorem descLen_encodeDescriptor : descLen (encodeDescriptor opc len addr) = len := by
  apply BitVec.eq_of_toNat_eq
  rw [toNat_descLen, Laws.toNat_encodeDescriptor]
  omega

@[simp] theorem descAddr_encodeDescriptor : descAddr (encodeDescriptor opc len addr) = addr := by
  apply BitVec.eq_of_toNat_eq
  rw [toNat_descAddr, Laws.toNat_encodeDescriptor]
  omega
end

/-- A descriptor whose reserved bits are 0 is made of its other three fields. -/
theorem encodeDescriptor_fields {d : Descriptor} (hr : descRsv d = 0) :
    encodeDescriptor (descOpc d) (descLen d) (descAddr d) = d := by
  have hz : d.toNat / 2 ^ 4 % 2 ^ 12 = 0 := (toNat_descRsv d).symm.trans (congrArg BitVec.toNat hr)
  apply BitVec.eq_of_toNat_eq
  rw [Laws.toNat_encodeDescriptor, toNat_descOpc, toNat_descLen, toNat_descAddr]
  omega

/-! ### The command decoder, case by case (R66 to R68) -/

theorem opc_cases (o : BitVec 4) :
    o = 1 ∨ o = 2 ∨ o = 3 ∨ o = 4 ∨ o = 5 ∨ o.toNat = 0 ∨ 6 ≤ o.toNat := by
  revert o; decide

section
variable {w : Nat} {d : Descriptor} {i j : Instr} {opc : BitVec 4}

theorem decodeBare_instr_iff : decodeBare i d = .instr j ↔ (descLen d = 0 ∧ descAddr d = 0) ∧ i = j := by
  unfold decodeBare
  split
  next h => simp [h]
  next h => exact iff_of_false nofun fun ⟨hzero, _⟩ => h hzero

theorem decodeBare_encodeDescriptor : decodeBare i (encodeDescriptor opc 0 0) = .instr i := by
  simp [decodeBare]

theorem decodeBare_reserved_iff : decodeBare i d = .reservedEncoding ↔ ¬(descLen d = 0 ∧ descAddr d = 0) := by
  simp [decodeBare]

theorem decodePlay_instr_iff :
    decodePlay w d = .instr j ↔ (descAddr d).toNat < 2 ^ w ∧ .play (descAddr d) (descLen d) = j := by
  unfold decodePlay
  split
  next h => simp [h]
  next h => exact iff_of_false nofun fun ⟨hfit, _⟩ => h hfit

theorem decodePlay_reserved_iff : decodePlay w d = .reservedEncoding ↔ 2 ^ w ≤ (descAddr d).toNat := by
  simp [decodePlay]

theorem decodeCmd_of_rsv (hr : descRsv d ≠ 0) : decodeCmd w d = .reservedEncoding := if_neg hr

theorem decodeCmd_init (hr : descRsv d = 0) (ho : descOpc d = 1) : decodeCmd w d = decodeBare .init d := by
  simp [decodeCmd, hr, ho]

theorem decodeCmd_enable (hr : descRsv d = 0) (ho : descOpc d = 2) : decodeCmd w d = decodeBare .enable d := by
  simp [decodeCmd, hr, ho]

theorem decodeCmd_disable (hr : descRsv d = 0) (ho : descOpc d = 3) : decodeCmd w d = decodeBare .disable d := by
  simp [decodeCmd, hr, ho]

theorem decodeCmd_play (hr : descRsv d = 0) (ho : descOpc d = 4) : decodeCmd w d = decodePlay w d := by
  simp [decodeCmd, hr, ho]

theorem decodeCmd_stop (hr : descRsv d = 0) (ho : descOpc d = 5) : decodeCmd w d = decodeBare .stop d := by
  simp [decodeCmd, hr, ho]

theorem decodeCmd_of_unused (ho : (descOpc d).toNat = 0 ∨ 6 ≤ (descOpc d).toNat) :
    decodeCmd w d = .reservedEncoding := by
  unfold decodeCmd
  split
  · split
    case h_6 => rfl
    all_goals omega
  · rfl

/-- Which descriptors are reserved at an address width (R67). -/
theorem decodeCmd_reserved_iff :
    decodeCmd w d = .reservedEncoding ↔
      descRsv d ≠ 0 ∨ ((descOpc d).toNat = 0 ∨ 6 ≤ (descOpc d).toNat) ∨
      ((descOpc d).toNat ∈ [1, 2, 3, 5] ∧ ¬(descLen d = 0 ∧ descAddr d = 0)) ∨
      ((descOpc d).toNat = 4 ∧ 2 ^ w ≤ (descAddr d).toNat) := by
  by_cases hr : descRsv d = 0
  · rcases opc_cases (descOpc d) with ho | ho | ho | ho | ho | ho
    · simp [decodeCmd_init hr ho, decodeBare_reserved_iff, hr, ho]
    · simp [decodeCmd_enable hr ho, decodeBare_reserved_iff, hr, ho]
    · simp [decodeCmd_disable hr ho, decodeBare_reserved_iff, hr, ho]
    · simp [decodeCmd_play hr ho, decodePlay_reserved_iff, hr, ho]
    · simp [decodeCmd_stop hr ho, decodeBare_reserved_iff, hr, ho]
    · exact iff_of_true (decodeCmd_of_unused ho) (.inr (.inl ho))
  · exact iff_of_true (decodeCmd_of_rsv hr) (.inl hr)

/-! ### Decoding and encoding agree -/

/-- The decoder reads a well-formed operation back from its encoding. -/
theorem decode_encode (hw : i.wellFormed w = true) : decode w (encode i) = .instr i := by
  cases i with
  | init => exact (decodeCmd_init (w := w) (by simp) (by simp)).trans decodeBare_encodeDescriptor
  | enable => exact (decodeCmd_enable (w := w) (by simp) (by simp)).trans decodeBare_encodeDescriptor
  | disable => exact (decodeCmd_disable (w := w) (by simp) (by simp)).trans decodeBare_encodeDescriptor
  | play addr len =>
    have ha : addr.toNat < 2 ^ w := of_decide_eq_true hw
    exact (decodeCmd_play (by simp) (by simp)).trans (decodePlay_instr_iff.2 (by simp [ha]))
  | stop => exact (decodeCmd_stop (w := w) (by simp) (by simp)).trans decodeBare_encodeDescriptor
  | fill half n => exact congrArg Decoded.instr (Laws.MatchesOpcodeRow.fill half n rfl).1

/-- The converse for a command without operands, whichever it is. -/
theorem encode_of_decodeBare (hr : descRsv d = 0) (ho : descOpc d = opc) (hw : i.wellFormed w = true)
    (he : encode i = .cmd (encodeDescriptor opc 0 0)) (h : decodeBare i d = .instr j) :
    j.wellFormed w = true ∧ encode j = .cmd d := by
  obtain ⟨⟨hl, ha⟩, rfl⟩ := decodeBare_instr_iff.1 h
  have hd := encodeDescriptor_fields hr
  rw [ho, hl, ha] at hd
  exact ⟨hw, he.trans (congrArg Encoded.cmd hd)⟩

/-- An accepted descriptor is the encoding of the well-formed command it decodes to. -/
theorem encode_of_decodeCmd (h : decodeCmd w d = .instr i) : i.wellFormed w = true ∧ encode i = .cmd d := by
  by_cases hr : descRsv d = 0
  · rcases opc_cases (descOpc d) with ho | ho | ho | ho | ho | ho
    · exact encode_of_decodeBare hr ho rfl rfl ((decodeCmd_init hr ho).symm.trans h)
    · exact encode_of_decodeBare hr ho rfl rfl ((decodeCmd_enable hr ho).symm.trans h)
    · exact encode_of_decodeBare hr ho rfl rfl ((decodeCmd_disable hr ho).symm.trans h)
    · obtain ⟨ha, rfl⟩ := decodePlay_instr_iff.1 ((decodeCmd_play hr ho).symm.trans h)
      have hd := encodeDescriptor_fields hr
      rw [ho] at hd
      exact ⟨decide_eq_true ha, congrArg Encoded.cmd hd⟩
    · exact encode_of_decodeBare hr ho rfl rfl ((decodeCmd_stop hr ho).symm.trans h)
    · exact nomatch (decodeCmd_of_unused ho).symm.trans h
  · exact nomatch (decodeCmd_of_rsv hr).symm.trans h

end

/-- A fill bundle is made of its two fields (R69). -/
theorem encode_decodeFrq (f : FillBundle) : encode (decodeFrq f) = .evt f := by
  have hf := f.isLt
  refine congrArg Encoded.evt (BitVec.eq_of_toNat_eq ?_)
  refine (Laws.toNat_append _ _).trans ?_
  rw [BitVec.extractLsb'_toNat, BitVec.extractLsb'_toNat, Nat.shiftRight_eq_div_pow, Nat.shiftRight_eq_div_pow]
  omega

/-- Settles O1, operation by operation: the encoder's fields are the ones the decoder reads. -/
theorem decodeEncodeAgree : Obligations.DecodeEncodeAgree :=
  fun _ _ => decode_encode

/-- Settles O2: a descriptor with reserved bits 0 is made of its other fields, and a bundle of its two. -/
theorem encodeDecodeAgree : Obligations.EncodeDecodeAgree :=
  ⟨fun _ _ _ => encode_of_decodeCmd, encode_decodeFrq⟩

/-! ### The opcode map over 64-bit descriptors (R66, R67) -/

/-- The 64-bit descriptor `d`, read at the standard port, is `d` itself with 32 zero bits above it. -/
theorem toNat_setWidth96 (d : BitVec 64) : (d.setWidth 96 : Descriptor).toNat = d.toNat :=
  BitVec.toNat_setWidth_of_le (by decide)

theorem setWidth_96_64 (d : BitVec 64) : (d.setWidth 96 : Descriptor).setWidth 64 = d := by
  rw [BitVec.setWidth_setWidth_of_le d (by decide), BitVec.setWidth_eq]

/-- Every operation's encoding matches its row of the table. -/
theorem matchesOpcodeRow (i : Instr) : Laws.MatchesOpcodeRow.Statement i := by
  cases i with
  | init => exact Laws.MatchesOpcodeRow.init
  | enable => exact Laws.MatchesOpcodeRow.enable
  | disable => exact Laws.MatchesOpcodeRow.disable
  | play addr len => exact Laws.MatchesOpcodeRow.play addr len
  | stop => exact Laws.MatchesOpcodeRow.stop
  | fill half n => exact Laws.MatchesOpcodeRow.fill half n

/-- A descriptor that decodes to a command spells the row of that mnemonic and no other. -/
theorem spells_iff_of_decodeCmd {d : BitVec 64} {i : Instr} (h : decodeCmd 32 (d.setWidth 96) = .instr i)
    {r : OpcodeRow} (hr : r ∈ opcodeMap) : r.spells d = true ↔ r.mnemonic = i.mnemonic := by
  obtain ⟨hw, he⟩ := encode_of_decodeCmd h
  have hrow := matchesOpcodeRow i hw
  rw [he] at hrow
  have hs := hrow.2 r hr
  rwa [setWidth_96_64] at hs

/-- A row without operands has the full mask, so only its pattern spells it. -/
theorem eq_pattern_of_spells {r : OpcodeRow} {d : BitVec 64} (hm : r.mask = BitVec.allOnes 64)
    (h : r.spells d = true) : d = r.pattern := by
  have he : d &&& r.mask = r.pattern := eq_of_beq h
  rwa [hm, BitVec.and_allOnes] at he

/-- A descriptor that spells PLAY's row decodes to a PLAY: the row leaves both operands free, and a pointer of a 64-bit
descriptor has 32 bits. -/
theorem decodeCmd_of_spells_play {d : BitVec 64} (h : d &&& 0x000000000000FFFF = 0x0000000000000004) :
    ∃ addr len, decodeCmd 32 (d.setWidth 96) = .instr (.play addr len) := by
  have hlow : d.toNat % 2 ^ 16 = 4 := by
    have hn := congrArg BitVec.toNat h
    rwa [BitVec.toNat_and, show (0x000000000000FFFF : BitVec 64).toNat = 2 ^ 16 - 1 from rfl,
      Nat.and_two_pow_sub_one_eq_mod] at hn
  have hd := d.isLt
  have hr : descRsv (d.setWidth 96) = 0 := by
    apply BitVec.eq_of_toNat_eq
    rw [toNat_descRsv, toNat_setWidth96, show (0 : BitVec 12).toNat = 0 from rfl]
    omega
  have ho : descOpc (d.setWidth 96) = 4 := by
    apply BitVec.eq_of_toNat_eq
    rw [toNat_descOpc, toNat_setWidth96, show (4 : BitVec 4).toNat = 4 from rfl]
    omega
  have ha : (descAddr (d.setWidth 96)).toNat < 2 ^ 32 := by
    rw [toNat_descAddr, toNat_setWidth96]
    omega
  exact ⟨_, _, (decodeCmd_play hr ho).trans (decodePlay_instr_iff.2 ⟨ha, rfl⟩)⟩

/-- A descriptor that spells a row decodes to a command of the row's mnemonic. -/
theorem decodeCmd_of_spells {r : OpcodeRow} (hr : r ∈ opcodeMap) {d : BitVec 64} (h : r.spells d = true) :
    ∃ i, decodeCmd 32 (d.setWidth 96) = .instr i ∧ i.mnemonic = r.mnemonic := by
  simp only [opcodeMap, List.mem_cons, List.not_mem_nil, or_false] at hr
  rcases hr with rfl | rfl | rfl | rfl | rfl
  · rw [eq_pattern_of_spells rfl h]; exact ⟨.init, by decide, rfl⟩
  · rw [eq_pattern_of_spells rfl h]; exact ⟨.enable, by decide, rfl⟩
  · rw [eq_pattern_of_spells rfl h]; exact ⟨.disable, by decide, rfl⟩
  · obtain ⟨addr, len, hd⟩ := decodeCmd_of_spells_play (eq_of_beq h)
    exact ⟨_, hd, rfl⟩
  · rw [eq_pattern_of_spells rfl h]; exact ⟨.stop, by decide, rfl⟩

/-- Every command has a row of its mnemonic. -/
theorem exists_row_of_decodeCmd {w : Nat} {d : Descriptor} {i : Instr} (h : decodeCmd w d = .instr i) :
    ∃ r ∈ opcodeMap, r.mnemonic = i.mnemonic := by
  rcases Machine.decodeCmd_command h with rfl | rfl | rfl | ⟨a, l, rfl⟩ | rfl <;>
    simp [opcodeMap, Instr.mnemonic]

theorem row_eq_of_mnemonic_eq : ∀ r ∈ opcodeMap, ∀ q ∈ opcodeMap, r.mnemonic = q.mnemonic → r = q := by
  decide

/-- The bits above the opcode of a 64-bit descriptor are 0 exactly when its reserved bits and both operands are. -/
theorem tail_eq_zero_iff (d : BitVec 64) :
    d.extractLsb' 4 60 = 0 ↔
      descRsv (d.setWidth 96) = 0 ∧ descLen (d.setWidth 96) = 0 ∧ descAddr (d.setWidth 96) = 0 := by
  have hd := d.isLt
  simp only [← BitVec.toNat_inj, toNat_descRsv, toNat_descLen, toNat_descAddr, toNat_setWidth96,
    BitVec.extractLsb'_toNat, Nat.shiftRight_eq_div_pow, BitVec.ofNat_eq_ofNat, BitVec.toNat_ofNat, Nat.zero_mod]
  omega

/-- R67 at the 64-bit port. No pointer is too wide there, so the last case of `decodeCmd_reserved_iff` falls away, and
a nonzero reserved bit is one of the bits above the opcode. -/
theorem decodeCmd_setWidth_reserved_iff (d : BitVec 64) :
    decodeCmd 32 (d.setWidth 96) = .reservedEncoding ↔
      ((d.extractLsb' 0 4).toNat = 0 ∨ 6 ≤ (d.extractLsb' 0 4).toNat) ∨
      ((d.extractLsb' 0 4).toNat ∈ [1, 2, 3, 5] ∧ d.extractLsb' 4 60 ≠ 0) ∨
      ((d.extractLsb' 0 4).toNat = 4 ∧ d.extractLsb' 4 12 ≠ 0) := by
  have hd := d.isLt
  have hopc : d.extractLsb' 0 4 = descOpc (d.setWidth 96) := (BitVec.extractLsb'_setWidth_of_le (by decide)).symm
  have hrsv : d.extractLsb' 4 12 = descRsv (d.setWidth 96) := (BitVec.extractLsb'_setWidth_of_le (by decide)).symm
  have haddr : ¬ 2 ^ 32 ≤ (descAddr (d.setWidth 96)).toNat := by
    rw [toNat_descAddr, toNat_setWidth96]
    omega
  rw [decodeCmd_reserved_iff, hopc, hrsv, Ne.eq_def (d.extractLsb' 4 60), tail_eq_zero_iff]
  by_cases hr : descRsv (d.setWidth 96) = 0
  · simp only [hr, haddr, ne_eq, not_true, false_or, true_and, and_false, or_false]
  · have htail : ¬(descRsv (d.setWidth 96) = 0 ∧ descLen (d.setWidth 96) = 0 ∧ descAddr (d.setWidth 96) = 0) :=
      fun ⟨hz, _⟩ => hr hz
    have hrow : ((descOpc (d.setWidth 96)).toNat = 0 ∨ 6 ≤ (descOpc (d.setWidth 96)).toNat) ∨
        (descOpc (d.setWidth 96)).toNat ∈ [1, 2, 3, 5] ∨ (descOpc (d.setWidth 96)).toNat = 4 := by
      simp only [List.mem_cons, List.not_mem_nil, or_false]
      omega
    exact iff_of_true (.inl hr) (hrow.imp_right (Or.imp (⟨·, htail⟩) (⟨·, hr⟩)))

/-- Settles O3: a row is spelled exactly by the descriptors that decode to its mnemonic, and the five differ. -/
theorem descriptorSpellsItsRow : Obligations.DescriptorSpellsItsRow := by
  intro d
  refine ⟨fun r hr => ⟨decodeCmd_of_spells hr, fun ⟨i, hd, hm⟩ => (spells_iff_of_decodeCmd hd hr).2 hm.symm⟩,
    fun r hr q hq hsr hsq => ?_, ?_⟩
  · obtain ⟨i, hd, hm⟩ := decodeCmd_of_spells hr hsr
    exact row_eq_of_mnemonic_eq r hr q hq (hm.symm.trans ((spells_iff_of_decodeCmd hd hq).1 hsq).symm)
  · cases hd : decodeCmd 32 (d.setWidth 96) with
    | instr i =>
      obtain ⟨r, hr, hm⟩ := exists_row_of_decodeCmd hd
      have hs := (spells_iff_of_decodeCmd hd hr).2 hm
      exact iff_of_false (fun hnone => by simp [hnone r hr] at hs) nofun
    | reservedEncoding =>
      refine iff_of_true (fun r hr => Bool.eq_false_iff.2 fun hs => ?_) rfl
      obtain ⟨i, hi, -⟩ := decodeCmd_of_spells hr hs
      exact nomatch hd.symm.trans hi

/-- Settles O5, by decoding each. -/
theorem specDescriptorsDecode : Obligations.SpecDescriptorsDecode :=
  ⟨by decide, by decide, by decide, by decide, by decide, by decide, by decide⟩

end Sys2Proof

namespace Sys2Proof.Machine

/-! ### The port (R63, R76) -/

/-- At the host's turn a ready port that is not halted accepts the call at its head. -/
theorem step_accepts {s : State} {c : HostCall} {rest : List HostCall} (hturn : nextTurn s = .host)
    (hready : s.hostPh = .ready) (hlive : s.halted = false) (hcalls : s.calls = c :: rest) :
    step s = acceptCall c rest (takeTurn s) := by
  simp [step, hturn, runTurn, hostTurn, takeTurn, hready, hlive, hcalls]

theorem acceptCall_instr {s : State} {c : HostCall} {i : Instr} (rest : List HostCall)
    (h : decodeCmd s.cfg.addrW c.desc = .instr i) : acceptCall c rest s = exec i (latchCall c rest s) := by
  simp [acceptCall, h]

theorem acceptCall_reserved {s : State} {c : HostCall} (rest : List HostCall)
    (h : decodeCmd s.cfg.addrW c.desc = .reservedEncoding) : acceptCall c rest s = .refused .reservedEncoding := by
  simp [acceptCall, h]

/-- Settles O4: the reserved descriptors field by field, and the port, which decodes before it admits (R76). -/
theorem reservedDescriptorsRefused : Obligations.ReservedDescriptorsRefused :=
  ⟨decodeCmd_setWidth_reserved_iff, fun _ _ rest hturn hready hlive hcalls hres =>
    (step_accepts hturn hready hlive hcalls).trans (acceptCall_reserved (s := takeTurn _) rest hres)⟩

/-- Settles O28: the port runs what it decodes, and what it decodes is well formed (O2). -/
theorem stepRunsAcceptedCommand : Obligations.StepRunsAcceptedCommand := by
  intro s c rest i hturn hready hlive hcalls hd
  obtain ⟨hw, -⟩ := encode_of_decodeCmd hd
  exact ⟨hw, (step_accepts hturn hready hlive hcalls).trans (acceptCall_instr (s := takeTurn s) rest hd)⟩

/-! ### The request bundle (R69) -/

/-- Settles O6: the bundle is read back as the FILL it was written from, and the FILL's operands are its fields. -/
theorem requestBundleFields : Obligations.RequestBundleFields := by
  intro s
  have hback : decodeFrq (frqBundle s) = .fill s.fillHalf s.frqN :=
    (Laws.MatchesOpcodeRow.fill s.fillHalf s.frqN rfl).1
  obtain ⟨hhalf, hn⟩ := Instr.fill.inj hback
  exact ⟨hn, hhalf, hback⟩

/-! ### The `STATUS` word (R70) -/

/-- The `STATUS` word as a number. -/
theorem toNat_statusWord (s : State) :
    (statusWord s).toNat = s.cursor.toNat * 2 ^ 16 + (busyFlag s).toNat * 2 ^ 6 + s.halted.toNat * 2 ^ 5 +
      s.inited.toNat * 2 ^ 4 + (runFlag s).toNat * 2 ^ 3 + s.ampEn.toNat * 2 ^ 2 + (stateBits s.state).toNat := by
  refine (Laws.toNat_append _ (stateBits s.state)).trans ?_
  simp only [Laws.toNat_append, BitVec.toNat_ofBool, show (0 : BitVec 9).toNat = 0 from rfl]
  omega

/-- A one-bit field of a `STATUS` word, read off its number; then a wider one. -/
theorem statusWord_bit (s : State) (k : Nat) (b : Bool) (h : (statusWord s).toNat / 2 ^ k % 2 = b.toNat) :
    (statusWord s).getLsbD k = b := by
  rw [BitVec.getLsbD, Nat.testBit_eq_decide_div_mod_eq, h]
  cases b <;> rfl

theorem statusWord_field (s : State) (k n : Nat) (v : BitVec n) (h : (statusWord s).toNat / 2 ^ k % 2 ^ n = v.toNat) :
    (statusWord s).extractLsb' k n = v := by
  apply BitVec.eq_of_toNat_eq
  rw [BitVec.extractLsb'_toNat, Nat.shiftRight_eq_div_pow, h]

theorem runFlag_iff (s : State) : runFlag s = true ↔ s.tph ≠ .stopped := by
  simp [runFlag]

theorem busyFlag_iff (s : State) : busyFlag s = true ↔ s.hostPh = .wait := by
  simp [busyFlag]

/-- Settles O7: each field is read off the word's number. -/
theorem statusWordFields : Obligations.StatusWordFields := by
  intro s
  have hw := toNat_statusWord s
  have hstate := (stateBits s.state).isLt
  have hamp := s.ampEn.toNat_lt
  have hrun := (runFlag s).toNat_lt
  have hinit := s.inited.toNat_lt
  have hhalt := s.halted.toNat_lt
  have hbusy := (busyFlag s).toNat_lt
  have hcur := s.cursor.isLt
  refine ⟨?_, ?_, ?_, ?_, ?_, ?_, ?_, ?_⟩
  · refine (statusWord_field s 0 2 (stateBits s.state) (by omega)).trans ?_
    cases s.state <;> rfl
  · exact statusWord_bit s 2 s.ampEn (by omega)
  · rw [statusWord_bit s 3 (runFlag s) (by omega), runFlag_iff]
  · exact statusWord_bit s 4 s.inited (by omega)
  · exact statusWord_bit s 5 s.halted (by omega)
  · rw [statusWord_bit s 6 (busyFlag s) (by omega), busyFlag_iff]
  · exact statusWord_field s 7 9 0 (by rw [show (0 : BitVec 9).toNat = 0 from rfl]; omega)
  · exact statusWord_field s 16 16 s.cursor (by omega)

end Sys2Proof.Machine
end

section
/-! The host commands (40_lifecycle_commands.md): the admission tests of R76, what each command answers once they are
made, and PLAY's completion. -/

namespace Sys2Proof.Machine

/-! ### The test of `INITED` (R76) -/

section
variable {s t u : State}

theorem whenInitialised_of_inited (h : s.inited = true) (next : Host.Outcome State Fault Refusal) :
    whenInitialised s next = next :=
  if_pos h

theorem whenInitialised_of_not_inited (h : s.inited = false) (next : Host.Outcome State Fault Refusal) :
    whenInitialised s next = .refused .notInitialised :=
  if_neg (Bool.eq_false_iff.1 h)

theorem whenInitialised_next (h : whenInitialised s (.next u) = .next t) : s.inited = true ∧ u = t := by
  cases hi : s.inited with
  | true => exact ⟨rfl, Host.Outcome.next.inj ((whenInitialised_of_inited hi _).symm.trans h)⟩
  | false => exact nomatch (whenInitialised_of_not_inited hi _).symm.trans h

/-- An idempotent effect that keeps `INITED` makes an idempotent command. -/
theorem whenInitialised_twice {f : State → State} (hkeep : (f s).inited = s.inited) (hidem : f (f s) = f s)
    (h : whenInitialised s (.next (f s)) = .next t) : whenInitialised t (.next (f t)) = .next t := by
  obtain ⟨hi, rfl⟩ := whenInitialised_next h
  rw [whenInitialised_of_inited (hkeep.trans hi), hidem]

end

/-! ### PLAY's view (R76; 20_memory.md R45, R47) -/

theorem viewWraps_iff {c : Config} {addr : Addr} {len : Len} :
    viewWraps c addr len = true ↔ 2 ^ c.addrW < addr.toNat + len.toNat :=
  decide_eq_true_iff

theorem not_viewWraps_iff {c : Config} {addr : Addr} {len : Len} :
    ¬viewWraps c addr len = true ↔ addr.toNat + len.toNat ≤ 2 ^ c.addrW :=
  viewWraps_iff.not.trans not_lt

/-- Two nonempty ranges that meet have the later of their first addresses in common. -/
theorem rangesMeet_iff {a m b n : Nat} :
    (0 < m ∧ 0 < n ∧ rangesMeet a m b n = true) ↔ ∃ x, a ≤ x ∧ x < a + m ∧ b ≤ x ∧ x < b + n := by
  simp only [rangesMeet, Bool.and_eq_true, decide_eq_true_eq]
  constructor
  · rintro ⟨hm, hn, hab, hba⟩
    exact ⟨max a b, by omega⟩
  · rintro ⟨x, hx⟩
    omega

theorem viewHasSideEffects_iff {c : Config} {addr : Addr} {len : Len} :
    viewHasSideEffects c addr len = true ↔
      ∃ r ∈ c.sideEffects, ∃ x, addr.toNat ≤ x ∧ x < addr.toNat + len.toNat ∧ r.base ≤ x ∧ x < r.base + r.size := by
  simp only [viewHasSideEffects, List.any_eq_true, Bool.and_eq_true, decide_eq_true_eq, and_assoc, rangesMeet_iff]

/-! ### What each command answers -/

theorem initStep_true_eq (s : State) :
    initStep true s = { s with ampEn := false, tph := .stopped, fillPend := false, state := .idle, inited := true } :=
  rfl

theorem initStep_false_eq (s : State) : initStep false s = { s with ampEn := false, halted := true } :=
  rfl

theorem exec_init_of_not_inited {s : State} (h : s.inited = false) :
    exec .init s = .next (initStep (initDraw s) { s with initDraws := s.initDraws + 1 }) :=
  if_neg (Bool.eq_false_iff.1 h)

theorem exec_init_of_inited {s : State} (h : s.inited = true) : exec .init s = .refused .alreadyInitialised :=
  if_pos h

theorem exec_enable (s : State) : exec .enable s = whenInitialised s (.next (ampSet s)) :=
  rfl

theorem exec_disable (s : State) : exec .disable s = whenInitialised s (.next (ampClear s)) :=
  rfl

theorem exec_stop (s : State) : exec .stop s = whenInitialised s (.next (haltPlayback s)) :=
  rfl

theorem haltPlayback_eq (s : State) :
    haltPlayback s = { s with tph := .stopped, fillPend := false, ampEn := false, state := .idle } :=
  rfl

theorem exec_play_zero (addr : Addr) (s : State) : exec (.play addr 0) s = whenInitialised s (.next s) :=
  congrArg (whenInitialised s) (if_pos rfl)

section
variable {s : State} {addr : Addr} {len : Len}

theorem exec_play_of_wraps (hi : s.inited = true) (hlen : len ≠ 0) (hw : viewWraps s.cfg addr len = true) :
    exec (.play addr len) s = .refused .viewWraps := by
  simp only [exec, execPlay, whenInitialised_of_inited hi, if_neg hlen, if_pos hw]

theorem exec_play_of_sideEffects (hi : s.inited = true) (hlen : len ≠ 0) (hw : ¬viewWraps s.cfg addr len = true)
    (he : viewHasSideEffects s.cfg addr len = true) :
    exec (.play addr len) s = .refused .sourceHasSideEffects := by
  simp only [exec, execPlay, whenInitialised_of_inited hi, if_neg hlen, if_neg hw, if_pos he]

theorem exec_play_of_admitted (hi : s.inited = true) (hlen : len ≠ 0) (hw : ¬viewWraps s.cfg addr len = true)
    (he : ¬viewHasSideEffects s.cfg addr len = true) : exec (.play addr len) s = .next (armPlay addr len s) := by
  simp only [exec, execPlay, whenInitialised_of_inited hi, if_neg hlen, if_neg hw, if_neg he]

/-- PLAY arms a session for every view inside the address space that meets no read side effect (R80). -/
theorem exec_play_arms (hi : s.inited = true) (hlen : len ≠ 0) (hv : addr.toNat + len.toNat ≤ 2 ^ s.cfg.addrW)
    (hr : ∀ r ∈ s.cfg.sideEffects, ∀ x, addr.toNat ≤ x → x < addr.toNat + len.toNat →
      ¬(r.base ≤ x ∧ x < r.base + r.size)) :
    exec (.play addr len) s = .next (armPlay addr len s) := by
  refine exec_play_of_admitted hi hlen (not_viewWraps_iff.2 hv) fun he => ?_
  obtain ⟨r, hmem, x, hlow, hhigh, hx⟩ := viewHasSideEffects_iff.1 he
  exact hr r hmem x hlow hhigh hx

/-- The arming of R80 and T.START (42_transmitter.md R111) as one record. -/
theorem armPlay_eq (addr : Addr) (len : Len) (s : State) :
    armPlay addr len s =
      { s with srcPtr := addr, srcLen := len, cursor := 0, state := .playing, ampEn := true,
               txHalf := 0, txIdx := 0, hsel := 0, fillPend := true, fillHalf := 0,
               frqN := BitVec.ofNat 16 (s.cfg.bufWords / 2), tph := .priming, hostPh := .wait } :=
  rfl

/-- An armed session has sent no half-word and has served no FILL (42_transmitter.md R121). -/
theorem sessionAt_armPlay (addr : Addr) (hlen : len ≠ 0) (s : State) : SessionAt s.out 0 0 (armPlay addr len s) where
  waiting := rfl
  source_nonempty := Nat.pos_of_ne_zero fun h => hlen (BitVec.eq_of_toNat_eq h)
  sent := (List.append_nil s.out).symm
  position := by simp [ringPosition, positionWord, halfBase]
  cursor_after := (Nat.zero_min _).symm
  state_after := (if_pos (Nat.zero_le _)).symm
  blocks_written := nofun
  request_half _ := rfl
  served := .inl ⟨rfl, rfl, rfl, rfl⟩

end

/-! ### PLAY's completion (R82) -/

/-- At the host's turn a waiting host whose session is Finished completes its PLAY. -/
theorem step_completes {s : State} (hturn : nextTurn s = .host) (hwait : s.hostPh = .wait)
    (hfinished : s.state = .finished) : step s = .next (completePlay (takeTurn s)) := by
  simp [step, hturn, runTurn, hostTurn, hwait, hfinished]

theorem completePlay_eq (s : State) :
    completePlay s =
      { s with tph := .stopped, fillPend := false, ampEn := false, state := .idle, hostPh := .ready } :=
  rfl

/-! ### The obligations -/

/-- Settles O13: the view is admitted, and the arming is the record of `armPlay_eq`. -/
theorem playArmsSession : Obligations.PlayArmsSession :=
  fun s addr len hi hlen hv hr => (exec_play_arms hi hlen hv hr).trans (congrArg _ (armPlay_eq addr len s))

/-- Settles O14: a view inside the address space passes the first test, so the second one answers. -/
theorem playRefusesBadView : Obligations.PlayRefusesBadView :=
  fun _ _ _ hi hlen => ⟨fun hw => exec_play_of_wraps hi hlen (viewWraps_iff.2 hw), fun hv he =>
    exec_play_of_sideEffects hi hlen (not_viewWraps_iff.2 hv) (viewHasSideEffects_iff.2 he)⟩

/-- Settles O49: the state that PLAY's arming answers opens the session. -/
theorem playOpensSession : Obligations.PlayOpensSession :=
  fun s addr len hi hlen hv hr =>
    ⟨armPlay addr len s, exec_play_arms hi hlen hv hr, rfl, rfl, sessionAt_armPlay addr hlen s⟩

/-- Settles O8, draw by draw. -/
theorem initTakesEffect : Obligations.InitTakesEffect := by
  refine fun s => ⟨fun hi => ?_, exec_init_of_inited⟩
  rw [exec_init_of_not_inited hi]
  cases initDraw s with
  | true => exact congrArg _ (initStep_true_eq _)
  | false => exact congrArg _ (initStep_false_eq _)

/-- Settles O9: the effect is AMP.SET's alone. -/
theorem enableSetsAmplifier : Obligations.EnableSetsAmplifier :=
  fun s hi => (exec_enable s).trans (whenInitialised_of_inited hi _)

/-- Settles O10: the effect is AMP.CLEAR's alone. -/
theorem disableClearsAmplifier : Obligations.DisableClearsAmplifier :=
  fun s hi => (exec_disable s).trans (whenInitialised_of_inited hi _)

/-- Settles O11: the effect does not look at `STATE`. -/
theorem stopHaltsPlayback : Obligations.StopHaltsPlayback := by
  intro s hi
  rw [exec_stop, whenInitialised_of_inited hi, haltPlayback_eq]

/-- Settles O12: the length is tested before the address is looked at. -/
theorem playOfNothingIsNoop : Obligations.PlayOfNothingIsNoop :=
  fun s addr hi => (exec_play_zero addr s).trans (whenInitialised_of_inited hi _)

/-- Settles O15: each of the four makes the test of `INITED` first. -/
theorem notInitialisedRefused : Obligations.NotInitialisedRefused := by
  rintro s i hi (rfl | rfl | rfl | ⟨addr, len, rfl⟩)
  · exact (exec_enable s).trans (whenInitialised_of_not_inited hi _)
  · exact (exec_disable s).trans (whenInitialised_of_not_inited hi _)
  · exact (exec_stop s).trans (whenInitialised_of_not_inited hi _)
  · exact whenInitialised_of_not_inited hi _

/-- Settles O16: the three effects are idempotent and keep `INITED`, which an INIT that succeeded has set. -/
theorem commandsIdempotent : Obligations.CommandsIdempotent := by
  refine ⟨?_, fun addr s t h => ?_, fun _ => exec_init_of_inited rfl⟩
  · rintro i s t (rfl | rfl | rfl) h
    · exact whenInitialised_twice (f := ampSet) rfl rfl h
    · exact whenInitialised_twice (f := ampClear) rfl rfl h
    · exact whenInitialised_twice (f := haltPlayback) rfl rfl h
  · obtain ⟨-, hst⟩ := whenInitialised_next ((exec_play_zero addr s).symm.trans h)
    exact hst.symm

/-- Settles O31: completion is STOP's body and the ready port. -/
theorem stepCompletesPlay : Obligations.StepCompletesPlay :=
  fun s hturn hwait hfinished =>
    (step_completes hturn hwait hfinished).trans (congrArg _ (completePlay_eq (takeTurn s)))

end Sys2Proof.Machine
end

section
/-! The fill engine (41_fill_engine.md): what FILL answers in each row of R91, the words it packs, the counts of R106,
and the turn that serves a request. -/

namespace Sys2Proof.Machine

/-! ### Admission (R90) -/

section
variable {s : State} {half : BitVec 1}

theorem exec_fill_of_le {n : BitVec 16} (h : n.toNat ≤ s.blockWords) :
    exec (.fill half n) s = .next (endFill (fillBody half n.toNat s)) :=
  if_neg (Nat.not_lt.2 h)

theorem exec_fill_of_lt {n : BitVec 16} (h : s.blockWords < n.toNat) :
    exec (.fill half n) s = .refused .fillTooLarge :=
  if_pos h

/-! ### The rows of R91 -/

theorem fillBody_of_idle_or_finished (n : Nat) (h : s.state = .idle ∨ s.state = .finished) :
    fillBody half n s = s := by
  rcases h with h | h <;> simp only [fillBody, h]

theorem fillBody_of_data (n : Nat) (hs : s.state = .playing) (hc : s.cursor.toNat < s.srcLen.toNat) :
    fillBody half n s = dataFill (halfBase s half) n s := by
  simp only [fillBody, hs, if_pos hc]

theorem exec_fill_of_data {n : BitVec 16} (hn : n.toNat ≤ s.blockWords) (hs : s.state = .playing)
    (hc : s.cursor.toNat < s.srcLen.toNat) :
    exec (.fill half n) s = .next (endFill (dataFill (halfBase s half) n.toNat s)) := by
  rw [exec_fill_of_le hn, fillBody_of_data n.toNat hs hc]

/-- The two rows of silence (R97, R98): the source is used up, or the first block of silence has been written. -/
theorem fillBody_of_silence {next : PlaybackState} (n : Nat)
    (h : (s.state = .playing ∧ s.srcLen.toNat ≤ s.cursor.toNat ∧ next = .finishing) ∨
      (s.state = .finishing ∧ next = .finished)) :
    fillBody half n s = { zeroFill (halfBase s half) n s with state := next } := by
  rcases h with ⟨hs, hc, rfl⟩ | ⟨hs, rfl⟩
  · simp only [fillBody, hs, if_neg (Nat.not_lt.2 hc)]
  · simp only [fillBody, hs]

/-- Only the data fill moves `CURSOR`, and it makes no transition (R101). -/
theorem fillBody_state_of_cursor_ne {n : Nat} (h : (fillBody half n s).cursor ≠ s.cursor) :
    (fillBody half n s).state = s.state := by
  rcases fillBody_cases half n s with ⟨-, heq⟩ | ⟨-, -, heq⟩ | ⟨-, -, heq⟩ | ⟨-, heq⟩ <;> rw [heq] at h ⊢
  · rw [dataFill_eq]
  · rw [zeroFill_eq] at h; exact absurd rfl h
  · rw [zeroFill_eq] at h; exact absurd rfl h

end

/-! ### The packed word (R94, R95) -/

/-- The word for offset `k` packs the bytes source memory lists there, or the view's last byte and a zero. -/
theorem viewWord_of_listed {s : State} {k : Nat} {b0 b1 : Byte}
    (hfits : s.srcPtr.toNat + s.srcLen.toNat ≤ 2 ^ s.cfg.addrW)
    (h0 : cellRead s.srcMem (s.srcPtr.toNat + k) = some b0)
    (h1 : (k + 1 < s.srcLen.toNat ∧ cellRead s.srcMem (s.srcPtr.toNat + (k + 1)) = some b1) ∨
      (k + 1 = s.srcLen.toNat ∧ b1 = 0)) :
    viewWord s k = pack b0 b1 := by
  have hk : k < s.srcLen.toNat := by omega
  rw [viewWord, if_pos hk, sourceByte_of_listed (by omega) h0]
  rcases h1 with ⟨hin, hb⟩ | ⟨hend, rfl⟩
  · rw [if_pos hin, sourceByte_of_listed (by omega) hb]
  · rw [if_neg (by omega)]

theorem toNat_widen (b : Byte) : (widen b).toNat = b.toNat * 2 ^ 8 := by
  rw [widen_eq_append]
  exact (Laws.toNat_append b (0 : BitVec 8)).trans (Nat.add_zero _)

theorem toNat_pack (b0 b1 : Byte) : (pack b0 b1).toNat = b1.toNat * 2 ^ 24 + b0.toNat * 2 ^ 8 := by
  have happend : (pack b0 b1).toNat = (widen b1).toNat * 2 ^ 16 + (widen b0).toNat := by
    rw [pack_eq_append]
    exact Laws.toNat_append (widen b1) (widen b0)
  rw [happend, toNat_widen, toNat_widen]
  omega

/-! ### The counts of a session (R106) -/

/-- `D` is the number of FILLs before which the source is not used up. -/
theorem lt_dataFills_iff {len n f : Nat} (hn : 1 ≤ n) : f < dataFills len n ↔ 2 * n * f < len := by
  have hceil : f < dataFills len n ↔ (f + 1) * n ≤ (len + 1) / 2 + n - 1 := Nat.le_div_iff_mul_le hn
  rw [hceil, Nat.succ_mul, Nat.mul_assoc 2 n f, Nat.mul_comm f n]
  omega

theorem stateAfterFills_of_le {d f : Nat} (h : f ≤ d) : stateAfterFills d f = .playing :=
  if_pos h

theorem stateAfterFills_of_eq_succ {d f : Nat} (h : f = d + 1) : stateAfterFills d f = .finishing :=
  (if_neg (by omega)).trans (if_pos h)

theorem stateAfterFills_of_succ_lt {d f : Nat} (h : d + 1 < f) : stateAfterFills d f = .finished :=
  (if_neg (by omega)).trans (if_neg (by omega))

@[simp] theorem fillBody_srcLen (half : BitVec 1) (n : Nat) (s : State) : (fillBody half n s).srcLen = s.srcLen := by
  rw [fillBody_eq]

/-- The registers are where R106 puts them after `f` FILLs of `n` words. -/
structure AfterFills (n f : Nat) (s : State) : Prop where
  cursor_after : s.cursor.toNat = min (2 * n * f) s.srcLen.toNat
  state_after : s.state = stateAfterFills (dataFills s.srcLen.toNat n) f

theorem AfterFills.start {s : State} (n : Nat) (hs : s.state = .playing) (hc : s.cursor = 0) : AfterFills n 0 s where
  cursor_after := by rw [hc]; exact (Nat.zero_min _).symm
  state_after := hs.trans (stateAfterFills_of_le (Nat.zero_le _)).symm

/-- One more FILL, whatever its half: a data fill before the `D`-th, then the two blocks of silence, then nothing. -/
theorem AfterFills.fill {n f : Nat} {s : State} (h : AfterFills n f s) (hn : 1 ≤ n) (half : BitVec 1) :
    AfterFills n (f + 1) (fillBody half n s) := by
  obtain ⟨hcur, hstate⟩ := h
  have hdata : f < dataFills s.srcLen.toNat n ↔ 2 * n * f < s.srcLen.toNat := lt_dataFills_iff hn
  have hstep : 2 * n * (f + 1) = 2 * n * f + 2 * n := Nat.mul_succ _ _
  have hdrained : dataFills s.srcLen.toNat n ≤ f → s.cursor.toNat = min (2 * n * (f + 1)) s.srcLen.toNat := by
    omega
  rcases lt_trichotomy f (dataFills s.srcLen.toNat n) with hlt | heq | hgt
  · have hs : s.state = .playing := hstate.trans (stateAfterFills_of_le hlt.le)
    rw [fillBody_of_data n hs (by omega)]
    have hcursor := dataFill_cursor (halfBase s half) n s (by omega)
    rw [dataFill_eq]
    exact ⟨by simp only; omega, hs.trans (stateAfterFills_of_le hlt).symm⟩
  · have hs : s.state = .playing := hstate.trans (stateAfterFills_of_le heq.le)
    rw [fillBody_of_silence n (.inl ⟨hs, by omega, rfl⟩), zeroFill_eq]
    exact ⟨hdrained heq.ge, (stateAfterFills_of_eq_succ (congrArg (· + 1) heq)).symm⟩
  · have hfinished : stateAfterFills (dataFills s.srcLen.toNat n) (f + 1) = .finished :=
      stateAfterFills_of_succ_lt (Nat.succ_lt_succ hgt)
    rcases Nat.eq_or_lt_of_le hgt with hone | htwo
    · have hs : s.state = .finishing := hstate.trans (stateAfterFills_of_eq_succ hone.symm)
      rw [fillBody_of_silence n (.inr ⟨hs, rfl⟩), zeroFill_eq]
      exact ⟨hdrained hgt.le, hfinished.symm⟩
    · have hs : s.state = .finished := hstate.trans (stateAfterFills_of_succ_lt htwo)
      rw [fillBody_of_idle_or_finished n (.inr hs)]
      exact ⟨hdrained hgt.le, hs.trans hfinished.symm⟩

/-- Any list of FILLs, one after another: the counts go on, and the view's length stays. -/
theorem AfterFills.foldl {n f : Nat} {s : State} (h : AfterFills n f s) (hn : 1 ≤ n) (halves : List (BitVec 1)) :
    AfterFills n (f + halves.length) (halves.foldl (fun u half => fillBody half n u) s) ∧
      (halves.foldl (fun u half => fillBody half n u) s).srcLen = s.srcLen := by
  induction halves generalizing f s with
  | nil => exact ⟨h, rfl⟩
  | cons half rest ih =>
    obtain ⟨hafter, hlen⟩ := ih (h.fill hn half)
    rw [Nat.add_assoc, Nat.add_comm 1] at hafter
    exact ⟨hafter, hlen.trans (fillBody_srcLen half n s)⟩

/-! ### The fill engine's turn (R90) -/

theorem step_serves {s : State} (hturn : nextTurn s = .fillEngine) (hp : s.fillPend = true) :
    step s = exec (.fill s.fillHalf s.frqN) (takeTurn s) := by
  simp [step, hturn, runTurn, fillTurn, hp]

/-! ### The obligations -/

/-- Settles O18: the loop writes zeros and nothing else, and the row of R91 makes the transition. -/
theorem fillWritesSilence : Obligations.FillWritesSilence := by
  intro s half n next hn hrow
  refine ⟨(zeroFill (halfBase s half) n.toNat s).txbuf, ?_, zeroFill_read (halfBase s half) n.toNat s⟩
  rw [exec_fill_of_le hn, fillBody_of_silence n.toNat hrow, zeroFill_eq]
  rfl

/-- Settles O19, by what the loop of R93 does to the words and to the cursor. -/
theorem fillPacksSamples : Obligations.FillPacksSamples := by
  intro s half n hn hs hc
  refine ⟨(dataFill (halfBase s half) n.toNat s).txbuf, (dataFill (halfBase s half) n.toNat s).cursor, ?_,
    dataFill_cursor _ _ s hc.le, dataFill_read _ _ s hc.le⟩
  rw [exec_fill_of_data hn hs hc, dataFill_eq]
  rfl

/-- Settles O21: the rows of R91 make at most one transition, and the one that moves `CURSOR` makes none. -/
theorem fillMakesOneTransition : Obligations.FillMakesOneTransition :=
  fun s half n hn => ⟨endFill (fillBody half n.toNat s), exec_fill_of_le hn, endFill_fillBody_state half n.toNat s,
    fillBody_state_of_cursor_ne⟩

/-- Settles O22, by induction on the list of halves. -/
theorem fillCountsOfSession : Obligations.FillCountsOfSession := by
  intro s n halves hs hc _ hn
  obtain ⟨⟨hcur, hstate⟩, hlen⟩ := (AfterFills.start n hs hc).foldl hn halves
  rw [Nat.zero_add, hlen] at hcur hstate
  exact ⟨hcur, hstate⟩

/-- Settles O57: word `j` is the view's word at `CURSOR + 2 j`, which packs the listed bytes. -/
theorem fillPacksListedBytes : Obligations.FillPacksListedBytes := by
  intro s half n j b0 b1 hn hs hfits hj h0 h1
  have hc : s.cursor.toNat < s.srcLen.toNat := by omega
  rw [Nat.add_assoc] at h0
  rw [Nat.add_assoc s.srcPtr.toNat, Nat.add_assoc s.srcPtr.toNat] at h1
  refine ⟨_, exec_fill_of_data hn hs hc, ?_⟩
  rw [endFill_txbuf, dataFill_read _ _ s hc.le, halfBase, if_pos (by omega), Nat.add_sub_cancel_left,
    viewWord_of_listed hfits h0 h1]

/-- Settles O17: the row of R91 is empty, so the FILL is the end of R100 alone. -/
theorem fillIdleOrFinishedIsNoop : Obligations.FillIdleOrFinishedIsNoop := by
  intro s half n hn hs
  rw [exec_fill_of_le hn, fillBody_of_idle_or_finished n.toNat hs]
  rfl

/-- Settles O20: the admission test of R90 answers. -/
theorem fillTooLargeRefused : Obligations.FillTooLargeRefused :=
  fun _ _ _ h => exec_fill_of_lt h

/-- Settles O23: the word is its two widened samples, and each lane is one of them (20_memory.md R48, R49). -/
theorem packLanes : Obligations.PackLanes := by
  intro b0 b1
  have hlane : ∀ h, laneOf (pack b0 b1) h = if h = 0 then widen b0 else widen b1 := fun h => by
    rw [pack_eq_append, laneOf_append]
  exact ⟨(hlane 0).trans (widen_eq_append b0), (hlane 1).trans (widen_eq_append b1), toNat_pack b0 b1⟩

/-- Settles O29: the bundle decodes to the FILL of its fields (O6), which is what the turn runs. -/
theorem stepServesRequest : Obligations.StepServesRequest := by
  intro s i hturn hp hd
  obtain ⟨-, -, hback⟩ := requestBundleFields s
  have hi : i = .fill s.fillHalf s.frqN := hd.symm.trans hback
  exact ⟨hi, hi ▸ step_serves hturn hp⟩

end Sys2Proof.Machine
end

section
/-! The transmitter (42_transmitter.md): the turns at which nothing happens, what an EMIT does, the sequence `S` and
the counts of a session, and the session that every step keeps. -/

namespace Sys2Proof.Machine

/-! ### Turns without a step (60_exceptions.md R139) -/

theorem runTurn_of_not_enabled {w : Turn} {u : State} (h : enabled w u = false) : runTurn w u = .next u := by
  cases w with
  | host =>
    cases hph : u.hostPh with
    | ready =>
      cases hl : u.halted with
      | true => simp [runTurn, hostTurn, hph, hl]
      | false =>
        have hcalls : u.calls = [] := by simpa [enabled, cmdReady, cmdValid, hph, hl] using h
        simp [runTurn, hostTurn, hph, hl, hcalls]
    | wait =>
      have hs : u.state ≠ .finished := by simpa [enabled, cmdReady, hph] using h
      simp [runTurn, hostTurn, hph, hs]
  | fillEngine =>
    have hp : u.fillPend = false := h
    simp [runTurn, fillTurn, hp]
  | transmitter =>
    have ht : u.tph ≠ .streaming := by simpa [enabled] using h
    simp [runTurn, emitTurn, ht]
  | reset =>
    have hph : u.hostPh = .wait := by cases hph : u.hostPh <;> simp [enabled, hph] at h ⊢
    simp [runTurn, resetTurn, hph]

/-- Who has a step does not depend on the schedule. -/
@[simp] theorem enabled_takeTurn (w : Turn) (s : State) : enabled w (takeTurn s) = enabled w s := by
  cases w <;> rfl

theorem step_of_not_enabled {s : State} (h : enabled (nextTurn s) s = false) : step s = .next (takeTurn s) :=
  runTurn_of_not_enabled ((enabled_takeTurn _ s).trans h)

theorem run_succ_of_step {M : Host.Core} {s t : M.State} (h : M.step s = .next t) (k : Nat) :
    M.run (k + 1) s = M.run k t := by
  rw [Host.Core.run, h]

/-- A run of given turns none of which has a step uses up the schedule and does nothing else. -/
theorem run_of_not_enabled {given rest : List Turn} {s : State} (hsched : s.sched = given ++ rest)
    (hnone : ∀ w ∈ given, enabled w s = false) :
    Host.Core.run Sys2Proof.core given.length s =
      .next { s with sched := rest, turns := s.turns + given.length } := by
  induction given generalizing s with
  | nil => rw [List.nil_append] at hsched; subst hsched; rfl
  | cons w given ih =>
    obtain ⟨hw, hgiven⟩ := List.forall_mem_cons.1 hnone
    have hturn : nextTurn s = w := by simp [nextTurn, hsched]
    have hstep : step s = .next (takeTurn s) := step_of_not_enabled (hturn ▸ hw)
    have htail : (takeTurn s).sched = given ++ rest := by rw [takeTurn_sched, hsched]; rfl
    have hrun := ih htail fun v hv => (enabled_takeTurn v s).trans (hgiven v hv)
    refine (run_succ_of_step (M := Sys2Proof.core) hstep given.length).trans (hrun.trans ?_)
    simp only [takeTurn, List.length_cons, Nat.add_assoc, Nat.add_comm 1]

/-! ### EMIT (R113 to R119) -/

section
variable {s : State}

theorem emit_of_no_underrun (hlate : halfBegins s = true → s.fillPend = false) (hi : s.txIdx.toNat < s.blockWords) :
    emit s = .next (emitHalfWord s) := by
  have hno : ¬(halfBegins s && s.fillPend) = true := by
    rw [Bool.and_eq_true]
    exact fun ⟨hb, hp⟩ => Bool.false_ne_true ((hlate hb).symm.trans hp)
  rw [emit, if_neg hno, if_pos hi]

theorem emit_of_late (hbegins : halfBegins s = true) (hp : s.fillPend = true) : emit s = .fault .underrun := by
  simp [emit, hbegins, hp]

theorem step_emits (hturn : nextTurn s = .transmitter) (hstream : s.tph = .streaming) :
    step s = emit (takeTurn s) := by
  simp [step, hturn, runTurn, emitTurn, hstream]

end

/-! ### The sequence `S` (R121) -/

section
variable {s : State}

theorem streamHalfWord_of_lt {k : Nat} (h : k < s.srcLen.toNat) : streamHalfWord s k = widen (sourceByte s k) :=
  if_pos h

theorem streamHalfWord_of_le {k : Nat} (h : s.srcLen.toNat ≤ k) : streamHalfWord s k = 0 :=
  if_neg (Nat.not_lt.2 h)

theorem streamWord_of_le {w : Nat} (h : s.srcLen.toNat ≤ 2 * w) : streamWord s w = 0 := by
  rw [streamWord, streamHalfWord_of_le h, streamHalfWord_of_le (by omega)]
  rfl

/-- The word a data fill packs for an even offset is the word of `S` there (41_fill_engine.md R95). -/
theorem viewWord_two_mul (w : Nat) : viewWord s (2 * w) = streamWord s w := by
  by_cases h0 : 2 * w < s.srcLen.toNat
  · rw [viewWord, if_pos h0, pack_eq_append, streamWord, streamHalfWord_of_lt h0]
    by_cases h1 : 2 * w + 1 < s.srcLen.toNat
    · rw [if_pos h1, streamHalfWord_of_lt h1]
    · rw [if_neg h1, streamHalfWord_of_le (Nat.not_lt.1 h1), widen_zero]
  · rw [viewWord, if_neg h0, streamWord_of_le (Nat.not_lt.1 h0)]

/-- `HSEL` selects the word's two half-words in their order in `S` (R116). -/
theorem laneOf_streamWord (w : Nat) (h : BitVec 1) :
    laneOf (streamWord s w) h = streamHalfWord s (2 * w + h.toNat) := by
  rw [streamWord, laneOf_append]
  rcases bit_cases h with rfl | rfl <;> rfl

/-- Once the source has been sent, what has been sent is the samples and then zeros. -/
theorem map_streamHalfWord {m : Nat} (h : s.srcLen.toNat ≤ m) :
    (List.range m).map (streamHalfWord s) =
      (List.range s.srcLen.toNat).map (fun k => widen (sourceByte s k)) ++
        List.replicate (m - s.srcLen.toNat) 0 := by
  obtain ⟨zeros, rfl⟩ := Nat.exists_eq_add_of_le h
  rw [List.range_add, List.map_append, List.map_map, Nat.add_sub_cancel_left]
  congr 1
  · exact List.map_congr_left fun k hk => streamHalfWord_of_lt (List.mem_range.1 hk)
  · refine List.eq_replicate_iff.2 ⟨by simp, fun x hx => ?_⟩
    obtain ⟨k, -, rfl⟩ := List.mem_map.1 hx
    exact streamHalfWord_of_le (Nat.le_add_right _ _)

end

/-! ### The counts of a session (R115; 41_fill_engine.md R106) -/

theorem stateAfterFills_eq_finishing_iff {d f : Nat} : stateAfterFills d f = .finishing ↔ f = d + 1 := by
  refine ⟨fun h => ?_, stateAfterFills_of_eq_succ⟩
  rcases lt_trichotomy f (d + 1) with hlt | heq | hgt
  · exact nomatch (stateAfterFills_of_le (Nat.lt_succ_iff.1 hlt)).symm.trans h
  · exact heq
  · exact nomatch (stateAfterFills_of_succ_lt hgt).symm.trans h

theorem stateAfterFills_eq_finished_iff {d f : Nat} : stateAfterFills d f = .finished ↔ d + 1 < f := by
  refine ⟨fun h => ?_, stateAfterFills_of_succ_lt⟩
  rcases lt_trichotomy f (d + 1) with hlt | heq | hgt
  · exact nomatch (stateAfterFills_of_le (Nat.lt_succ_iff.1 hlt)).symm.trans h
  · exact nomatch (stateAfterFills_of_eq_succ heq).symm.trans h
  · exact hgt

section
variable {b m : Nat}

theorem fillsServed_false (b m : Nat) : fillsServed b m false = fillsServed b m true + 1 := rfl

/-- With a request pending, as many FILLs have been served as blocks have been begun. -/
theorem lt_fillsServed_pending_iff (hb : 0 < b) {j : Nat} : j < fillsServed b m true ↔ 2 * b * j < m := by
  have hc : 0 < 2 * b := by omega
  have hdiv := Nat.div_add_mod m (2 * b)
  have hserved : fillsServed b m true = m / (2 * b) + if m % (2 * b) = 0 then 0 else 1 := rfl
  rw [hserved]
  by_cases hr : m % (2 * b) = 0
  · have hwhole : 2 * b * j < 2 * b * (m / (2 * b)) ↔ j < m / (2 * b) := Nat.mul_lt_mul_left hc
    rw [if_pos hr]
    omega
  · have hwhole : 2 * b * (m / (2 * b)) < 2 * b * j ↔ m / (2 * b) < j := Nat.mul_lt_mul_left hc
    have hnext : 2 * b * (m / (2 * b) + 1) ≤ 2 * b * j ↔ m / (2 * b) + 1 ≤ j := Nat.mul_le_mul_left_iff hc
    have hlast := Nat.mod_lt m hc
    rw [Nat.mul_succ] at hnext
    rw [if_neg hr]
    omega

/-- The block being sent is one of the last two filled, or the last one at its first half-word. -/
theorem fillsServed_bounds {pending : Bool} (hlate : m % (2 * b) = 0 → pending = false) :
    m / (2 * b) < fillsServed b m pending ∧ fillsServed b m pending ≤ m / (2 * b) + 2 := by
  unfold fillsServed
  by_cases hr : m % (2 * b) = 0
  · rw [if_pos hr, hlate hr]; exact ⟨by simp, by simp⟩
  · rw [if_neg hr]; split <;> omega

/-- An EMIT leaves the count: at a block's first half-word it begins the block and raises its request (R115). -/
theorem fillsServed_succ (hb : 0 < b) {pending : Bool} (hlate : m % (2 * b) = 0 → pending = false) :
    fillsServed b (m + 1) (if m % (2 * b) = 0 then true else pending) = fillsServed b m pending := by
  have hc : 0 < 2 * b := by omega
  have hdiv := Nat.mod_add_div m (2 * b)
  have hlast := Nat.mod_lt m hc
  unfold fillsServed
  by_cases hr : m % (2 * b) = 0
  · obtain ⟨hq, hr'⟩ := (Nat.div_mod_unique hc (a := m + 1) (d := m / (2 * b)) (c := 1)).2 (by omega)
    rw [hq, hr', hr, hlate hr]
    simp
  · rw [if_neg hr, if_neg hr]
    by_cases hend : m % (2 * b) + 1 = 2 * b
    · have hnext : 2 * b * (m / (2 * b) + 1) = 2 * b * (m / (2 * b)) + 2 * b := Nat.mul_succ _ _
      obtain ⟨hq, hr'⟩ := (Nat.div_mod_unique hc (a := m + 1) (d := m / (2 * b) + 1) (c := 0)).2 (by omega)
      rw [hq, hr', if_pos rfl]
    · obtain ⟨hq, hr'⟩ :=
        (Nat.div_mod_unique hc (a := m + 1) (d := m / (2 * b)) (c := m % (2 * b) + 1)).2 (by omega)
      rw [hq, hr', if_neg (Nat.succ_ne_zero _)]

end

/-! ### The words a FILL leaves in a session -/

/-- A place of one block lies in no other block. -/
theorem not_mem_block_of_ne {a c b j : Nat} (hne : c ≠ a) (hj : j < b) :
    ¬(a * b ≤ c * b + j ∧ c * b + j < a * b + b) := by
  rintro ⟨hlow, hhigh⟩
  rw [← Nat.succ_mul] at hhigh
  have ha : (c * b + j) / b = a := Nat.div_eq_of_lt_le hlow hhigh
  have hc : (c * b + j) / b = c :=
    Nat.div_eq_of_lt_le (Nat.le_add_right _ _) (by rw [Nat.succ_mul]; exact Nat.add_lt_add_left hj _)
  exact hne (hc.symm.trans ha)

/-- A FILL leaves every word outside its block. -/
theorem cellRead_fillBody_outside {half : BitVec 1} {n i : Nat} {s : State} (hcur : s.cursor.toNat ≤ s.srcLen.toNat)
    (hi : ¬(halfBase s half ≤ i ∧ i < halfBase s half + n)) :
    cellRead (fillBody half n s).txbuf i = cellRead s.txbuf i := by
  rcases fillBody_cases half n s with ⟨-, heq⟩ | ⟨-, -, heq⟩ | ⟨-, -, heq⟩ | ⟨-, heq⟩ <;> rw [heq]
  · rw [dataFill_read _ _ _ hcur, if_neg hi]
  · exact (zeroFill_read _ _ _ _).trans (if_neg hi)
  · exact (zeroFill_read _ _ _ _).trans (if_neg hi)

section
variable {before : List HalfWord} {m f : Nat} {s : State}

theorem SessionAt.takeTurn (h : SessionAt before m f s) : SessionAt before m f (takeTurn s) := { h with }

/-- A block that comes after the data fills is silence. -/
theorem streamWord_of_dataFills_le (hb : 0 < s.blockWords) {b : Nat}
    (h : dataFills s.srcLen.toNat s.blockWords ≤ b) (i : Nat) : streamWord s (b * s.blockWords + i) = 0 := by
  have hend : s.srcLen.toNat ≤ 2 * s.blockWords * b := Nat.not_lt.1 ((lt_dataFills_iff hb).not.1 (Nat.not_lt.2 h))
  rw [Nat.mul_assoc, Nat.mul_comm s.blockWords] at hend
  exact streamWord_of_le (by omega)

/-- Once both blocks of silence are filled, each of the last two blocks written is silent (R107). -/
theorem SessionAt.cellRead_of_finished (h : SessionAt before m f s) (hb : 0 < s.blockWords)
    (hs : s.state = .finished) {b i : Nat} (hbf : b < f) (hfb : f ≤ b + 2) (hi : i < s.blockWords) :
    cellRead s.txbuf (b % 2 * s.blockWords + i) = some 0 := by
  have hd := stateAfterFills_eq_finished_iff.1 (h.state_after.symm.trans hs)
  rw [h.blocks_written b i hbf hfb hi, streamWord_of_dataFills_le hb (by omega)]

/-- The FILL after `f` others leaves block `f` of `S` in its half: the view's words, or silence, which a session that
is Finished already has there. -/
theorem SessionAt.cellRead_fillBody (h : SessionAt before m f s) (hinv : BlockInv s) {half : BitVec 1}
    (hhalf : half.toNat = f % 2) {i : Nat} (hi : i < s.blockWords) :
    cellRead (fillBody half s.blockWords s).txbuf (halfBase s half + i) =
      some (streamWord s (f * s.blockWords + i)) := by
  have hb : 0 < s.blockWords := blockWords_pos hinv.cfg_legal
  have hcur := h.cursor_after
  have hcomm : 2 * s.blockWords * f = 2 * (f * s.blockWords) := by rw [Nat.mul_assoc, Nat.mul_comm f]
  have hplace : halfBase s half ≤ halfBase s half + i ∧ halfBase s half + i < halfBase s half + s.blockWords := by
    omega
  have hsilence : s.srcLen.toNat ≤ s.cursor.toNat →
      cellRead (zeroFill (halfBase s half) s.blockWords s).txbuf (halfBase s half + i) =
        some (streamWord s (f * s.blockWords + i)) := fun hend => by
    rw [zeroFill_read, if_pos hplace, streamWord_of_le (by omega)]
  rcases fillBody_cases half s.blockWords s with ⟨hs, heq⟩ | ⟨-, hc, heq⟩ | ⟨-, hc, heq⟩ | ⟨hs, heq⟩ <;> rw [heq]
  · have hfin : s.state = .finished := hs.resolve_left (hinv.wait_session h.waiting)
    have hd := stateAfterFills_eq_finished_iff.1 (h.state_after.symm.trans hfin)
    have hold := h.cellRead_of_finished hb hfin (b := f - 2) (by omega) (by omega) hi
    rw [show (f - 2) % 2 = half.toNat by omega] at hold
    exact hold.trans (congrArg some (streamWord_of_dataFills_le hb (by omega) i).symm)
  · rw [dataFill_read _ _ _ hc.le, if_pos hplace, Nat.add_sub_cancel_left, ← viewWord_two_mul]
    congr 2
    omega
  · exact hsilence hc
  · exact hsilence (by rw [hinv.drained_cursor (.inl hs)])

/-- Serving the pending request is FILL `f + 1` of the session. -/
theorem SessionAt.fill (h : SessionAt before m f s) (hinv : BlockInv s) (hp : s.fillPend = true) :
    SessionAt before m (f + 1) (endFill (fillBody s.fillHalf s.blockWords s)) := by
  have hb : 0 < s.blockWords := blockWords_pos hinv.cfg_legal
  obtain ⟨-, -, hlive⟩ := hinv.pending_live hp
  have hhalf := h.request_half hp
  obtain ⟨hcursor, hstate⟩ := AfterFills.fill ⟨h.cursor_after, h.state_after⟩ hb s.fillHalf
  have hnew := fun i hi => h.cellRead_fillBody hinv hhalf (i := i) hi
  have hold := fun i => cellRead_fillBody_outside (half := s.fillHalf) (n := s.blockWords) (i := i) hinv.cursor_in_view
  rw [halfBase, hhalf] at hnew hold
  rw [fillBody_srcLen] at hcursor hstate
  rw [fillBody_eq]
  exact {
    waiting := h.waiting
    source_nonempty := h.source_nonempty
    sent := h.sent
    position := h.position
    cursor_after := hcursor
    state_after := hstate
    blocks_written := fun b i hbf hfb hi => by
      rcases Nat.lt_succ_iff_lt_or_eq.1 hbf with hlt | rfl
      · exact (hold _ (not_mem_block_of_ne (by omega) hi)).trans (h.blocks_written b i hlt (by omega) hi)
      · exact hnew i hi
    request_half := nofun
    served := .inr ⟨endFill_tph_of_live hlive, by
      rcases h.served with ⟨-, rfl, rfl, -⟩ | ⟨-, hf⟩
      · simp [fillsServed]
      · rw [hp] at hf
        rw [hf]
        rfl⟩ }

/-! ### The half-word an EMIT sends in a session -/

theorem toNat_one_sub (b : BitVec 1) : (1 - b).toNat = 1 - b.toNat := by
  revert b; decide

theorem SessionAt.served_of_streaming (h : SessionAt before m f s) (hstream : s.tph = .streaming) :
    f = fillsServed s.blockWords m s.fillPend := by
  rcases h.served with ⟨hprime, -⟩ | ⟨-, hf⟩
  · exact nomatch hprime.symm.trans hstream
  · exact hf

/-- Where the count of half-words sent puts the position, field by field (R117). -/
theorem SessionAt.position_fields (h : SessionAt before m f s) (hidx : s.txIdx.toNat < s.blockWords) :
    s.txHalf.toNat = m / (2 * s.blockWords) % 2 ∧
      2 * s.txIdx.toNat + s.hsel.toNat = m % (2 * s.blockWords) := by
  have hring : 2 * (s.txHalf.toNat * s.blockWords + s.txIdx.toNat) + s.hsel.toNat =
      m % (2 * s.blockWords * 2) := by
    rw [show 2 * s.blockWords * 2 = 4 * s.blockWords by omega]
    exact h.position
  have hsel := s.hsel.isLt
  have hcomm : 2 * s.blockWords * s.txHalf.toNat = 2 * (s.txHalf.toNat * s.blockWords) := by
    rw [Nat.mul_assoc, Nat.mul_comm s.blockWords]
  obtain ⟨hquot, hrem⟩ := (Nat.div_mod_unique (by omega) (a := m % (2 * s.blockWords * 2)) (b := 2 * s.blockWords)
    (d := s.txHalf.toNat) (c := 2 * s.txIdx.toNat + s.hsel.toNat)).2 (by omega)
  rw [Nat.mod_mul_right_div_self] at hquot
  rw [Nat.mod_mul_right_mod] at hrem
  exact ⟨hquot.symm, hrem.symm⟩

theorem SessionAt.halfBegins_iff (h : SessionAt before m f s) (hidx : s.txIdx.toNat < s.blockWords) :
    halfBegins s = true ↔ m % (2 * s.blockWords) = 0 := by
  obtain ⟨-, hoffset⟩ := h.position_fields hidx
  rw [Machine.halfBegins_iff, ← hoffset, ← BitVec.toNat_inj, ← BitVec.toNat_inj]
  simp

/-- The word under the position of a stream without underrun is the word of `S` that comes next (R129). -/
theorem SessionAt.cellRead_positionWord (h : SessionAt before m f s) (hidx : s.txIdx.toNat < s.blockWords)
    (hstream : s.tph = .streaming) (hlate : halfBegins s = true → s.fillPend = false) :
    cellRead s.txbuf (positionWord s) = some (streamWord s (m / 2)) := by
  obtain ⟨hhalf, hoffset⟩ := h.position_fields hidx
  have hf := h.served_of_streaming hstream
  obtain ⟨hlow, hhigh⟩ := fillsServed_bounds (b := s.blockWords) fun hr => hlate ((h.halfBegins_iff hidx).2 hr)
  have hword := h.blocks_written _ _ (hf ▸ hlow) (hf ▸ hhigh) hidx
  have hdiv := Nat.div_add_mod m (2 * s.blockWords)
  rw [Nat.mul_assoc, Nat.mul_comm s.blockWords] at hdiv
  rw [← hhalf, show m / (2 * s.blockWords) * s.blockWords + s.txIdx.toNat = m / 2 by omega] at hword
  exact hword

theorem SessionAt.positionHalfWord_eq (h : SessionAt before m f s) (hidx : s.txIdx.toNat < s.blockWords)
    (hstream : s.tph = .streaming) (hlate : halfBegins s = true → s.fillPend = false) :
    positionHalfWord s = streamHalfWord s m := by
  obtain ⟨-, hoffset⟩ := h.position_fields hidx
  have hparity : m % (2 * s.blockWords) % 2 = m % 2 := Nat.mod_mul_right_mod m 2 s.blockWords
  have hsel := s.hsel.isLt
  rw [positionHalfWord, txRead_of_listed (h.cellRead_positionWord hidx hstream hlate), laneOf_streamWord,
    show 2 * (m / 2) + s.hsel.toNat = m by omega]

/-- An EMIT without underrun sends the next half-word of `S`. -/
theorem SessionAt.emitHalfWord (h : SessionAt before m f s) (hinv : BlockInv s) (hstream : s.tph = .streaming)
    (hlate : halfBegins s = true → s.fillPend = false) : SessionAt before (m + 1) f (emitHalfWord s) := by
  have hb : 0 < s.blockWords := blockWords_pos hinv.cfg_legal
  have hidx := hinv.index_in_half
  have hbegins := h.halfBegins_iff hidx
  obtain ⟨hhalf, -⟩ := h.position_fields hidx
  have hf := h.served_of_streaming hstream
  obtain ⟨hring, -⟩ := ringPosition_emitHalfWord s hidx (blockWords_le hinv.cfg_legal)
  have hsent : s.out ++ [positionHalfWord s] = before ++ (List.range (m + 1)).map (streamHalfWord s) := by
    rw [h.sent, h.positionHalfWord_eq hidx hstream hlate, List.range_succ, List.map_append, List.append_assoc]
    rfl
  have hrequest : (if halfBegins s then true else s.fillPend) = true →
      (if halfBegins s then 1 - s.txHalf else s.fillHalf).toNat = f % 2 := by
    by_cases hbeg : halfBegins s = true
    · rw [hlate hbeg, fillsServed, hbegins.1 hbeg] at hf
      rw [if_pos hbeg, if_pos hbeg, toNat_one_sub, hhalf, hf]
      simp only [if_true, Bool.false_eq_true, if_false]
      omega
    · rw [if_neg hbeg, if_neg hbeg]; exact h.request_half
  have hserved := fillsServed_succ hb (m := m) (pending := s.fillPend) fun hr => hlate (hbegins.2 hr)
  simp only [← hbegins] at hserved
  rw [h.position, Nat.mod_add_mod] at hring
  rw [emitHalfWord_eq] at hring ⊢
  exact { h with
    sent := hsent
    position := hring
    request_half := hrequest
    served := .inr ⟨hstream, hf.trans hserved.symm⟩ }

/-! ### Every step of a session (R121) -/

/-- Every turn of a session that does not complete it leaves it under way. -/
theorem SessionAt.runTurn {w : Turn} {t : State} (h : SessionAt before m f s) (hinv : BlockInv s)
    (hx : runTurn w s = .next t) (hwait : t.hostPh = .wait) : InSession before t := by
  rcases runTurn_cases hx with rfl | ⟨-, hready, -⟩ | ⟨-, -, -, rfl⟩ | ⟨-, hp, -, rfl⟩ | ⟨-, hstream, hlate, -, rfl⟩ |
    ⟨-, hready, -⟩
  · exact ⟨m, f, h⟩
  · exact nomatch h.waiting.symm.trans hready
  · exact nomatch hwait
  · rw [hinv.request_full hp]
    exact ⟨m, f + 1, h.fill hinv hp⟩
  · exact ⟨m + 1, f, h.emitHalfWord hinv hstream hlate⟩
  · exact nomatch h.waiting.symm.trans hready

/-- The fill engine's turn with a request pending is the session's next FILL. -/
theorem SessionAt.step_serves {t : State} (h : SessionAt before m f s) (hinv : BlockInv s)
    (hturn : nextTurn s = .fillEngine) (hp : s.fillPend = true) (hstep : step s = .next t) :
    SessionAt before m (f + 1) t := by
  rw [Machine.step_serves hturn hp] at hstep
  obtain ⟨-, rfl⟩ := execFill_next hstep
  rw [hinv.request_full hp]
  exact h.takeTurn.fill hinv.takeTurn hp

/-! ### The end of a session (R122, R123) -/

/-- Of the last two blocks written one is in each half. -/
theorem exists_recent_of_parity {p : Nat} (hf : 2 ≤ f) (hp : p < 2) : ∃ b, b < f ∧ f ≤ b + 2 ∧ b % 2 = p := by
  by_cases hlast : (f - 1) % 2 = p
  · exact ⟨f - 1, by omega, by omega, hlast⟩
  · exact ⟨f - 2, by omega, by omega, by omega⟩

/-- When both blocks of silence are filled, both halves are silent and more than the data blocks has been sent. -/
theorem SessionAt.silent_of_finished (h : SessionAt before m f s) (hinv : BlockInv s) (hs : s.state = .finished) :
    BothHalvesSilent s ∧ 2 * s.blockWords * dataFills s.srcLen.toNat s.blockWords < m := by
  have hb : 0 < s.blockWords := blockWords_pos hinv.cfg_legal
  have hd := stateAfterFills_eq_finished_iff.1 (h.state_after.symm.trans hs)
  refine ⟨fun i hi => ?_, (lt_fillsServed_pending_iff hb).1 ?_⟩
  · have hhalf : i / s.blockWords < 2 := (Nat.div_lt_iff_lt_mul hb).2 hi
    obtain ⟨b, hbf, hfb, hparity⟩ := exists_recent_of_parity (f := f) (by omega) hhalf
    have hzero := h.cellRead_of_finished hb hs hbf hfb (Nat.mod_lt i hb)
    rwa [hparity, Nat.div_add_mod'] at hzero
  · rcases h.served with ⟨-, -, rfl, -⟩ | ⟨-, hf⟩
    · omega
    · cases hp : s.fillPend with
      | true => rw [hp] at hf; omega
      | false => rw [hp, fillsServed_false] at hf; omega

/-- A position in silence sends silence (R123). -/
theorem positionHalfWord_of_silent (hsilent : BothHalvesSilent s) (hidx : s.txIdx.toNat < s.blockWords) :
    positionHalfWord s = 0 := by
  have hplace : positionWord s < 2 * s.blockWords := by
    rw [positionWord, halfBase_eq]; split <;> omega
  rw [positionHalfWord, txRead_of_listed (hsilent _ hplace), laneOf_zero]

/-- What a turn leaves of a Finished session that it does not complete. -/
theorem runTurn_of_finished {w : Turn} {t : State} (hs : s.state = .finished) (hsilent : BothHalvesSilent s)
    (hbusy : s.hostPh = .wait) (hx : runTurn w s = .next t) (hwait : t.hostPh = .wait) :
    t.state = .finished ∧ BothHalvesSilent t ∧ (t.out = s.out ∨ (w = .transmitter ∧ t.out = s.out ++ [0])) := by
  rcases runTurn_cases hx with rfl | ⟨-, hready, -⟩ | ⟨-, -, -, rfl⟩ | ⟨-, -, -, rfl⟩ | ⟨hw, -, -, hidx, rfl⟩ |
    ⟨-, hready, -⟩
  · exact ⟨hs, hsilent, .inl rfl⟩
  · exact nomatch hbusy.symm.trans hready
  · exact nomatch hwait
  · rw [fillBody_of_idle_or_finished _ (.inr hs)]
    exact ⟨hs, hsilent, .inl rfl⟩
  · have hout := emitHalfWord_out s
    rw [positionHalfWord_of_silent hsilent hidx] at hout
    rw [emitHalfWord_eq] at hout ⊢
    exact ⟨hs, hsilent, .inr ⟨hw, hout⟩⟩
  · exact nomatch hbusy.symm.trans hready

end

/-! ### The obligations -/

/-- Settles O50: the turn's bookkeeping, and then each thing its taker can do. -/
theorem stepKeepsSession : Obligations.StepKeepsSession :=
  fun _ _ _ hinv ⟨_, _, h⟩ hstep hwait => h.takeTurn.runTurn hinv.takeTurn hstep hwait

/-- Settles O24: without underrun EMIT answers the record of `emitHalfWord_eq`. -/
theorem emitSendsHalfWord : Obligations.EmitSendsHalfWord := by
  intro s hlate hidx
  have hno : halfBegins s = true → s.fillPend = false := fun hb => by
    obtain ⟨hi, hh⟩ := (halfBegins_iff s).1 hb
    exact Bool.eq_false_iff.2 fun hp => hlate ⟨hi, hh, hp⟩
  rw [emit_of_no_underrun hno hidx, emitHalfWord_eq]
  simp only [halfBegins_iff]
  rfl

/-- Settles O26: EMIT's tests and its record read none of the four registers. -/
theorem emitIgnoresSession : Obligations.EmitIgnoresSession := by
  refine ⟨fun s => beq_iff_eq, fun s hs => if_neg hs, fun s t state cursor srcLen srcPtr hemit => ?_⟩
  obtain ⟨hlate, hidx, rfl⟩ := emit_next hemit
  rw [emit_of_no_underrun (s := { s with state := state, cursor := cursor, srcPtr := srcPtr, srcLen := srcLen })
    hlate hidx, emitHalfWord_eq, emitHalfWord_eq]
  rfl

/-- Settles O27: what an EMIT answers has the position one on. -/
theorem positionGoesRound : Obligations.PositionGoesRound := by
  intro s t hB hemit
  obtain ⟨-, hidx, rfl⟩ := emit_next hemit
  exact ringPosition_emitHalfWord s hidx hB

/-- Settles O36: while priming, none of the other takers has a step. -/
theorem primingHangsWithoutFill : Obligations.PrimingHangsWithoutFill := by
  intro s given rest hprime hwait hs hgiven hsched
  refine run_of_not_enabled hsched fun w hw => ?_
  cases w with
  | host => simp [enabled, cmdReady, hwait, hs]
  | fillEngine => exact absurd hw hgiven
  | transmitter => simp [enabled, hprime]
  | reset => simp [enabled, hwait]

/-- Settles O45: an EMIT that answers is not at the edge of R40 item 5, so the halves differ. -/
theorem fillAndEmitNeverShareHalf : Obligations.FillAndEmitNeverShareHalf := by
  intro s t hinv hstream hp hemit i hi
  obtain ⟨hlate, hidx, -⟩ := emit_next hemit
  have hne : s.fillHalf ≠ s.txHalf := (hinv.pending_half hstream hp).resolve_right fun ⟨_, hi, hh⟩ =>
    Bool.false_ne_true ((hlate ((halfBegins_iff s).2 ⟨hi, hh⟩)).symm.trans hp)
  exact halves_disjoint hne hi hidx

/-- Settles O51: more than the data blocks has been sent, and these hold the whole source. -/
theorem finishedMeansWholeSourceSent : Obligations.FinishedMeansWholeSourceSent := by
  rintro before s hinv ⟨m, f, h⟩ hs
  obtain ⟨hsilent, hm⟩ := h.silent_of_finished hinv hs
  have hall : s.srcLen.toNat ≤ 2 * s.blockWords * dataFills s.srcLen.toNat s.blockWords :=
    Nat.not_lt.1 ((lt_dataFills_iff (blockWords_pos hinv.cfg_legal)).not.1 (lt_irrefl _))
  refine ⟨hsilent, m - s.srcLen.toNat, by omega, ?_, by omega⟩
  rw [h.sent, map_streamHalfWord (by omega), List.append_assoc]

/-- Settles O52: the FILL is the session's `D + 2`-nd, and it pends while block `D + 1` is being sent. -/
theorem finishedSetOnTime : Obligations.FinishedSetOnTime := by
  rintro before s t hinv ⟨m, f, h⟩ hs hturn hp hstep
  have hb : 0 < s.blockWords := blockWords_pos hinv.cfg_legal
  have hf : f = dataFills s.srcLen.toNat s.blockWords + 1 :=
    stateAfterFills_eq_finishing_iff.1 (h.state_after.symm.trans hs)
  have hbegun : f = fillsServed s.blockWords m true := by
    rcases h.served with ⟨-, -, hf0, -⟩ | ⟨-, hserved⟩
    · omega
    · rwa [hp] at hserved
  have hlow := (lt_fillsServed_pending_iff hb (m := m) (j := dataFills s.srcLen.toNat s.blockWords)).1 (by omega)
  have hhigh := (lt_fillsServed_pending_iff hb (m := m) (j := f)).not.1 (by omega)
  have hnext := h.step_serves hinv hturn hp hstep
  obtain ⟨-, -, -, hlen, hcfg, -⟩ := sessionShutsThePort s t h.waiting hstep
  have hblock : t.blockWords = s.blockWords := congrArg Config.blockWords hcfg
  have hfinished : t.state = .finished := by
    rw [hnext.state_after, hlen, hblock]
    exact stateAfterFills_of_succ_lt (by omega)
  obtain ⟨hsilent, -⟩ := hnext.silent_of_finished (stepKeepsInvariants s t hinv hstep) hfinished
  have hout : t.out.length = before.length + m := by simp [hnext.sent]
  refine ⟨hfinished, hsilent, by omega, ?_⟩
  rw [← hf]
  omega

/-- Settles O53: the session's halves are silent, and no turn that leaves the host waiting changes that. -/
theorem finishedStaysSilent : Obligations.FinishedStaysSilent := by
  rintro before s t hinv ⟨m, f, h⟩ hs hstep hwait
  obtain ⟨hsilent, -⟩ := h.takeTurn.silent_of_finished hinv.takeTurn hs
  exact runTurn_of_finished (s := takeTurn s) hs hsilent h.waiting hstep hwait

/-- Settles O25: the turn is an EMIT, and its first test finds the underrun. -/
theorem lateFillUnderruns : Obligations.LateFillUnderruns :=
  fun s hturn hstream hi hh hp =>
    (step_emits hturn hstream).trans (emit_of_late (s := takeTurn s) ((halfBegins_iff s).2 ⟨hi, hh⟩) hp)

/-- Settles O30: the turn of a streaming transmitter is its EMIT. -/
theorem stepEmitsWhileStreaming : Obligations.StepEmitsWhileStreaming :=
  fun _ hturn hstream => step_emits hturn hstream

end Sys2Proof.Machine
end

section
/-! Holds, faults and refusals (60_exceptions.md): the turns that change nothing, the outcomes a step can have, what
each agent may write, and an order of turns that ends a session. -/

namespace Sys2Proof.Machine

/-! ### What stops a step (R132) -/

/-- The outcomes the host's turn can have: it never faults, and no command is refused as a FILL is. -/
def HostOutcome : Host.Outcome State Fault Refusal → Prop
  | .next _ => True
  | .fault _ => False
  | .refused r => r ≠ .fillTooLarge

theorem whenInitialised_hostOutcome (s : State) {next : Host.Outcome State Fault Refusal} (h : HostOutcome next) :
    HostOutcome (whenInitialised s next) := by
  unfold whenInitialised
  split
  · exact h
  · exact nofun

theorem exec_command_hostOutcome {i : Instr} (s : State) (hf : ∀ half n, i ≠ .fill half n) :
    HostOutcome (exec i s) := by
  cases i with
  | init =>
    cases hi : s.inited with
    | true => rw [exec_init_of_inited hi]; exact nofun
    | false => rw [exec_init_of_not_inited hi]; trivial
  | enable => exact whenInitialised_hostOutcome s trivial
  | disable => exact whenInitialised_hostOutcome s trivial
  | play addr len =>
    refine whenInitialised_hostOutcome s ?_
    split_ifs
    · trivial
    · exact nofun
    · exact nofun
    · trivial
  | stop => exact whenInitialised_hostOutcome s trivial
  | fill half n => exact absurd rfl (hf half n)

theorem acceptCall_hostOutcome (c : HostCall) (rest : List HostCall) (s : State) :
    HostOutcome (acceptCall c rest s) := by
  cases hd : decodeCmd s.cfg.addrW c.desc with
  | instr i =>
    rw [acceptCall_instr rest hd]
    exact exec_command_hostOutcome _ (decodeCmd_ne_fill hd)
  | reservedEncoding =>
    rw [acceptCall_reserved rest hd]
    exact nofun

/-- The host's turn answers a next state, or it is the acceptance of a call at a ready port that is not halted. -/
theorem hostTurn_cases (u : State) :
    (∃ t, hostTurn u = .next t) ∨
    (u.hostPh = .ready ∧ u.halted = false ∧ ∃ c rest, u.calls = c :: rest ∧ hostTurn u = acceptCall c rest u) := by
  cases hph : u.hostPh with
  | wait =>
    refine .inl ?_
    simp only [hostTurn, hph]
    split <;> exact ⟨_, rfl⟩
  | ready =>
    cases hl : u.halted with
    | true => exact .inl ⟨u, by simp [hostTurn, hph, hl]⟩
    | false =>
      cases hcalls : u.calls with
      | nil => exact .inl ⟨u, by simp [hostTurn, hph, hl, hcalls]⟩
      | cons c rest => exact .inr ⟨rfl, rfl, c, rest, rfl, by simp [hostTurn, hph, hl, hcalls]⟩

theorem hostTurn_refused {u : State} {r : Refusal} (h : hostTurn u = .refused r) :
    u.hostPh = .ready ∧ u.halted = false ∧ u.calls ≠ [] ∧ r ≠ .fillTooLarge := by
  rcases hostTurn_cases u with ⟨t, ht⟩ | ⟨hready, hlive, c, rest, hcalls, ht⟩
  · exact nomatch h.symm.trans ht
  · have hr := acceptCall_hostOutcome c rest u
    rw [← ht, h] at hr
    exact ⟨hready, hlive, hcalls ▸ nofun, hr⟩

theorem hostTurn_ne_fault (u : State) (r : Fault) : hostTurn u ≠ .fault r := by
  intro h
  rcases hostTurn_cases u with ⟨t, ht⟩ | ⟨-, -, c, rest, -, ht⟩
  · exact nomatch h.symm.trans ht
  · have hr := acceptCall_hostOutcome c rest u
    rw [← ht, h] at hr
    exact hr

/-- A request of the block is never too large (30_encoding.md R69), so the fill engine's turn always answers. -/
theorem BlockInv.fillTurn_next {u : State} (h : BlockInv u) : ∃ t, fillTurn u = .next t := by
  unfold fillTurn
  split
  next hp => exact ⟨_, exec_fill_of_le (h.request_full hp).le⟩
  next => exact ⟨u, rfl⟩

theorem resetTurn_next (u : State) : ∃ t, resetTurn u = .next t := by
  unfold resetTurn
  split <;> exact ⟨_, rfl⟩

/-- At a position inside its half an EMIT answers, or it is the underrun of R119. -/
theorem emit_cases {u : State} (hidx : u.txIdx.toNat < u.blockWords) :
    (∃ t, emit u = .next t) ∨
    (emit u = .fault .underrun ∧ u.txIdx = 0 ∧ u.hsel = 0 ∧ u.fillPend = true) := by
  by_cases hlate : halfBegins u = true → u.fillPend = false
  · exact .inl ⟨_, emit_of_no_underrun hlate hidx⟩
  · obtain ⟨hbegins, hp⟩ := Classical.not_imp.1 hlate
    have hp' : u.fillPend = true := Bool.eq_true_of_not_eq_false hp
    obtain ⟨hi, hh⟩ := (halfBegins_iff u).1 hbegins
    exact .inr ⟨emit_of_late hbegins hp', hi, hh, hp'⟩

/-- The transmitter's turn answers a next state, or it is an underrun. -/
theorem BlockInv.emitTurn_cases {u : State} (h : BlockInv u) :
    (∃ t, emitTurn u = .next t) ∨
    (emitTurn u = .fault .underrun ∧ u.tph = .streaming ∧ u.txIdx = 0 ∧ u.hsel = 0 ∧ u.fillPend = true) := by
  unfold emitTurn
  split
  next hstream =>
    rcases emit_cases h.index_in_half with hnext | ⟨hfault, hlate⟩
    · exact .inl hnext
    · exact .inr ⟨hfault, hstream, hlate⟩
  next => exact .inl ⟨u, rfl⟩

theorem BlockInv.runTurn_fault {w : Turn} {u : State} {r : Fault} (h : BlockInv u)
    (hx : Machine.runTurn w u = .fault r) :
    r = .underrun ∧ w = .transmitter ∧ u.tph = .streaming ∧ u.txIdx = 0 ∧ u.hsel = 0 ∧ u.fillPend = true := by
  cases w with
  | host => exact absurd hx (hostTurn_ne_fault u r)
  | fillEngine =>
    obtain ⟨t, ht⟩ := h.fillTurn_next
    exact nomatch hx.symm.trans ht
  | transmitter =>
    rcases h.emitTurn_cases with ⟨t, ht⟩ | ⟨ht, hlate⟩
    · exact nomatch hx.symm.trans ht
    · exact ⟨Host.Outcome.fault.inj (hx.symm.trans ht), rfl, hlate⟩
  | reset =>
    obtain ⟨t, ht⟩ := resetTurn_next u
    exact nomatch hx.symm.trans ht

theorem BlockInv.runTurn_refused {w : Turn} {u : State} {r : Refusal} (h : BlockInv u)
    (hx : Machine.runTurn w u = .refused r) :
    w = .host ∧ u.hostPh = .ready ∧ u.halted = false ∧ u.calls ≠ [] ∧ r ≠ .fillTooLarge := by
  cases w with
  | host => exact ⟨rfl, hostTurn_refused hx⟩
  | fillEngine =>
    obtain ⟨t, ht⟩ := h.fillTurn_next
    exact nomatch hx.symm.trans ht
  | transmitter =>
    rcases h.emitTurn_cases with ⟨t, ht⟩ | ⟨ht, -⟩ <;> exact nomatch hx.symm.trans ht
  | reset =>
    obtain ⟨t, ht⟩ := resetTurn_next u
    exact nomatch hx.symm.trans ht

/-! ### Who may write what (R149) -/

/-- What the host's turn may do outside PLAY's arming: the view, `CURSOR`, `FILL_HALF`, the position and the bundle
stay, and playback is at most halted (42_transmitter.md R110, R112). -/
structure HaltsAtMost (u t : State) : Prop where
  frame : t = { u with
    state := t.state, ampEn := t.ampEn, inited := t.inited, halted := t.halted, hostPh := t.hostPh, tph := t.tph
    fillPend := t.fillPend, srcMem := t.srcMem, calls := t.calls, initDraws := t.initDraws }
  tph : t.tph = u.tph ∨ t.tph = .stopped
  fillPend : t.fillPend = u.fillPend ∨ t.fillPend = false
  state : t.state = u.state ∨ t.state = .idle

theorem HaltsAtMost.refl (u : State) : HaltsAtMost u u := ⟨rfl, .inl rfl, .inl rfl, .inl rfl⟩

/-- Latching the call is no more than that: the calls and source memory are free in the frame. -/
theorem HaltsAtMost.of_latchCall {c : HostCall} {rest : List HostCall} {u t : State}
    (h : HaltsAtMost (latchCall c rest u) t) : HaltsAtMost u t :=
  ⟨h.frame, h.tph, h.fillPend, h.state⟩

/-- A command halts at most, or it is PLAY's arming. -/
theorem exec_command_haltsAtMost {i : Instr} {s t : State} (hf : ∀ half n, i ≠ .fill half n)
    (hx : exec i s = .next t) : HaltsAtMost s t ∨ ∃ addr len, i = .play addr len ∧ t = armPlay addr len s := by
  rcases exec_command_cases hf hx with ⟨-, -, rfl⟩ | ⟨-, hcmd⟩
  · cases initDraw s with
    | true => exact .inl ⟨rfl, .inr rfl, .inr rfl, .inr rfl⟩
    | false => exact .inl ⟨rfl, .inl rfl, .inl rfl, .inl rfl⟩
  · rcases hcmd with ⟨-, rfl⟩ | ⟨-, rfl⟩ | ⟨-, rfl⟩ | ⟨a, -, rfl⟩ | ⟨a, l, hi, -, -, rfl⟩
    · exact .inl ⟨rfl, .inl rfl, .inl rfl, .inl rfl⟩
    · exact .inl ⟨rfl, .inl rfl, .inl rfl, .inl rfl⟩
    · exact .inl ⟨rfl, .inr rfl, .inr rfl, .inr rfl⟩
    · exact .inl (.refl t)
    · exact .inr ⟨a, l, hi, rfl⟩

/-- The host's turn halts at most, or it is the arming of the PLAY at the head of the port. -/
theorem runTurn_host_writes {u t : State} (hx : runTurn .host u = .next t) :
    HaltsAtMost u t ∨ ∃ c rest addr len, u.calls = c :: rest ∧
      decodeCmd u.cfg.addrW c.desc = .instr (.play addr len) ∧ t = armPlay addr len (latchCall c rest u) := by
  rcases runTurn_cases hx with rfl | ⟨-, -, -, c, rest, i, hcalls, hd, hexec⟩ | ⟨-, -, -, rfl⟩ | ⟨hw, -⟩ | ⟨hw, -⟩ |
    ⟨hw, -⟩
  · exact .inl (.refl t)
  · rcases exec_command_haltsAtMost (decodeCmd_ne_fill hd) hexec with h | ⟨addr, len, rfl, rfl⟩
    · exact .inl h.of_latchCall
    · exact .inr ⟨c, rest, addr, len, hcalls, hd, rfl⟩
  · exact .inl ⟨rfl, .inr rfl, .inr rfl, .inr rfl⟩
  all_goals exact nomatch hw

theorem endFill_tph_cases (u : State) :
    (endFill u).tph = u.tph ∨ (u.tph = .priming ∧ (endFill u).tph = .streaming) := by
  rw [endFill_tph]
  split
  next hprime => exact .inr ⟨hprime, rfl⟩
  next => exact .inl rfl

@[simp] theorem fillBody_tph (half : BitVec 1) (n : Nat) (s : State) : (fillBody half n s).tph = s.tph := by
  rw [fillBody_eq]

/-- The fill engine's turn is a hold or a served FILL. -/
theorem runTurn_fillEngine_writes {u t : State} (hx : runTurn .fillEngine u = .next t) :
    t = { u with cursor := t.cursor, state := t.state, txbuf := t.txbuf, tph := t.tph, fillPend := t.fillPend } ∧
    (t.state = u.state ∨ t.state = .finishing ∨ t.state = .finished) ∧
    (t.tph = u.tph ∨ (u.tph = .priming ∧ t.tph = .streaming)) ∧
    (t.fillPend = u.fillPend ∨ t.fillPend = false) := by
  rcases runTurn_cases hx with rfl | ⟨hw, -⟩ | ⟨hw, -⟩ | ⟨-, -, -, rfl⟩ | ⟨hw, -⟩ | ⟨hw, -⟩
  · exact ⟨rfl, .inl rfl, .inl rfl, .inl rfl⟩
  · exact nomatch hw
  · exact nomatch hw
  · refine ⟨by rw [fillBody_eq]; rfl, ?_, ?_, .inr rfl⟩
    · exact (endFill_fillBody_state u.fillHalf u.frqN.toNat u).imp_right (Or.imp And.right And.right)
    · simpa only [fillBody_tph] using endFill_tph_cases (fillBody u.fillHalf u.frqN.toNat u)
  · exact nomatch hw
  · exact nomatch hw

/-- The transmitter's turn is a hold or an EMIT. -/
theorem runTurn_transmitter_writes {u t : State} (hx : runTurn .transmitter u = .next t) :
    t = { u with
      fillPend := t.fillPend, fillHalf := t.fillHalf, frqN := t.frqN, txHalf := t.txHalf, txIdx := t.txIdx
      hsel := t.hsel, out := t.out } ∧
    (t.fillPend = u.fillPend ∨ t.fillPend = true) ∧ (t.out = u.out ∨ ∃ h, t.out = u.out ++ [h]) := by
  rcases runTurn_cases hx with rfl | ⟨hw, -⟩ | ⟨hw, -⟩ | ⟨hw, -⟩ | ⟨-, -, -, -, rfl⟩ | ⟨hw, -⟩
  · exact ⟨rfl, .inl rfl, .inl rfl⟩
  · exact nomatch hw
  · exact nomatch hw
  · exact nomatch hw
  · refine ⟨by rw [emitHalfWord_eq], ?_, .inr ⟨_, emitHalfWord_out u⟩⟩
    rw [emitHalfWord_fillPend]
    split
    next => exact .inr rfl
    next => exact .inl rfl
  · exact nomatch hw

/-! ### An order of turns that ends a session (R137) -/

/-- The fill engine and the transmitter in turn, `n` times each, then the host. No EMIT of it is late: the fill
engine has just served whatever request was pending. -/
def drainTurns : Nat → List Turn
  | 0 => [.host]
  | n + 1 => .fillEngine :: .transmitter :: drainTurns n

theorem reset_not_mem_drainTurns (n : Nat) : Turn.reset ∉ drainTurns n := by
  induction n with
  | zero => simp [drainTurns]
  | succ n ih => simpa [drainTurns] using ih

/-- At least as many FILLs as the session still needs to be Finished: one per byte of the source left, and the two
blocks of silence (41_fill_engine.md R106). -/
def fillsLeft (s : State) : Nat :=
  match s.state with
  | .playing => s.srcLen.toNat - s.cursor.toNat + 2
  | .finishing => 1
  | .idle | .finished => 0

/-- Half-words of the position's half before the position (10_state.md R21). -/
def halfOffset (s : State) : Nat := 2 * s.txIdx.toNat + s.hsel.toNat

/-- EMITs until one raises a request, when none is pending: up to the first half-word of a half (42_transmitter.md
R115). -/
def emitsToRequest (s : State) : Nat := if halfOffset s = 0 then 1 else 2 * s.blockWords + 1 - halfOffset s

/-- Rounds of the fill engine and the transmitter that are enough to finish the session. -/
def roundsLeft (s : State) : Nat :=
  fillsLeft s * (2 * s.blockWords + 1) + if s.fillPend then 0 else emitsToRequest s

section
variable {s : State}

theorem halfBegins_iff_halfOffset (s : State) : halfBegins s = true ↔ halfOffset s = 0 := by
  rw [halfBegins_iff, ← BitVec.toNat_inj, ← BitVec.toNat_inj, halfOffset]
  simp

theorem halfOffset_lt (h : BlockInv s) : halfOffset s < 2 * s.blockWords := by
  have hidx := h.index_in_half
  have hsel := s.hsel.isLt
  simp only [halfOffset]
  omega

theorem emitsToRequest_le (h : BlockInv s) : emitsToRequest s ≤ 2 * s.blockWords := by
  have hoffset := halfOffset_lt h
  simp only [emitsToRequest]
  split <;> omega

/-- An EMIT moves the position one half-word on in its half, or to the beginning of the other (R117). -/
theorem halfOffset_emitHalfWord (h : BlockInv s) :
    halfOffset (emitHalfWord s) = if halfOffset s + 1 = 2 * s.blockWords then 0 else halfOffset s + 1 := by
  have hoffset : halfOffset s = 2 * s.txIdx.toNat + s.hsel.toNat := rfl
  have hnext := txIdx_succ h.index_in_half (blockWords_le h.cfg_legal)
  rw [halfOffset, emitHalfWord_txIdx, emitHalfWord_hsel]
  rcases bit_cases s.hsel with hh | hh
  · have hsel : s.hsel.toNat = 0 := congrArg BitVec.toNat hh
    rw [if_pos hh, if_pos hh, if_neg (by omega), hoffset, hsel]
    rfl
  · have hsel : s.hsel.toNat = 1 := congrArg BitVec.toNat hh
    have hne : s.hsel ≠ 0 := hh ▸ by decide
    rw [if_neg hne, if_neg hne]
    by_cases hlast : s.txIdx.toNat + 1 = s.blockWords
    · rw [if_pos hlast, if_pos (by omega)]
      rfl
    · rw [if_neg hlast, if_neg (by omega), hnext hlast, hoffset, hsel]
      rfl

/-- A FILL of at least one word brings a session that is not Finished nearer to it. -/
theorem fillsLeft_fill_lt (h : BlockInv s) (hidle : s.state ≠ .idle) (hs : s.state ≠ .finished) (half : BitVec 1)
    {n : Nat} (hn : 0 < n) : fillsLeft (endFill (fillBody half n s)) < fillsLeft s := by
  rcases fillBody_cases half n s with ⟨hend, -⟩ | ⟨hplay, hc, heq⟩ | ⟨hplay, -, heq⟩ | ⟨hfin, heq⟩
  · exact (hend.elim hidle hs).elim
  · have hcursor := dataFill_cursor (halfBase s half) n s h.cursor_in_view
    rw [heq, dataFill_eq]
    simp only [fillsLeft, endFill_state, endFill_srcLen, endFill_cursor, hplay]
    omega
  · rw [heq]
    simp [fillsLeft, hplay]
  · rw [heq]
    simp [fillsLeft, hfin]

/-- Serving a request never puts the end of a session further away, for all the EMITs until the next request. -/
theorem roundsLeft_fill_le (h : BlockInv s) (hp : s.fillPend = true) (hs : s.state ≠ .finished) :
    roundsLeft (endFill (fillBody s.fillHalf s.frqN.toNat s)) ≤ roundsLeft s := by
  obtain ⟨-, hidle, -⟩ := h.pending_live hp
  have hfull := h.request_full hp
  have hfewer := fillsLeft_fill_lt h hidle hs s.fillHalf (hfull ▸ blockWords_pos h.cfg_legal : 0 < s.frqN.toNat)
  have hemits := emitsToRequest_le (h.fill hp s.fillHalf hfull.le)
  have hmul := Nat.mul_le_mul_right (2 * s.blockWords + 1) (Nat.succ_le_of_lt hfewer)
  have hblock : (endFill (fillBody s.fillHalf s.frqN.toNat s)).blockWords = s.blockWords := by
    rw [fillBody_eq]; rfl
  rw [Nat.succ_mul] at hmul
  rw [hblock] at hemits
  rw [roundsLeft, roundsLeft, hblock, if_pos hp, endFill_fillPend, if_neg Bool.false_ne_true]
  omega

/-- An EMIT with no request pending raises one, or brings the next one nearer. -/
theorem roundsLeft_emitHalfWord_lt (h : BlockInv s) (hp : s.fillPend = false) :
    roundsLeft (emitHalfWord s) < roundsLeft s := by
  have hoffset := halfOffset_lt h
  have hnext := halfOffset_emitHalfWord h
  have hfills : fillsLeft (emitHalfWord s) = fillsLeft s := by
    simp only [fillsLeft, emitHalfWord_state, emitHalfWord_srcLen, emitHalfWord_cursor]
  rw [roundsLeft, roundsLeft, hfills, emitHalfWord_blockWords, emitHalfWord_fillPend, hp]
  refine Nat.add_lt_add_left ?_ _
  by_cases hbegins : halfBegins s = true
  · have hzero := (halfBegins_iff_halfOffset s).1 hbegins
    simp [hbegins, emitsToRequest, hzero]
  · have hpos : halfOffset s ≠ 0 := fun hzero => hbegins ((halfBegins_iff_halfOffset s).2 hzero)
    simp only [hbegins, Bool.false_eq_true, if_false, emitsToRequest, emitHalfWord_blockWords, hnext, hpos]
    split_ifs <;> omega

end

/-- A session that `n` rounds of the fill engine and the transmitter are enough to finish. -/
structure FinishesWithin (n : Nat) (s : State) : Prop where
  inv : BlockInv s
  waiting : s.hostPh = .wait
  rounds : s.state = .finished ∨ roundsLeft s ≤ n

section
variable {n : Nat} {s : State}

/-- With no rounds left the session is Finished: any other state of a session has a FILL left. -/
theorem FinishesWithin.finished (h : FinishesWithin 0 s) : s.state = .finished := by
  refine h.rounds.elim id fun hrounds => ?_
  have hnone : fillsLeft s = 0 := by
    have hfills : fillsLeft s ≤ fillsLeft s * (2 * s.blockWords + 1) :=
      Nat.le_mul_of_pos_right _ (Nat.succ_pos _)
    rw [roundsLeft] at hrounds
    omega
  cases hs : s.state with
  | idle => exact absurd hs (h.inv.wait_session h.waiting)
  | playing => simp [fillsLeft, hs] at hnone
  | finishing => simp [fillsLeft, hs] at hnone
  | finished => rfl

theorem FinishesWithin.takeTurn (h : FinishesWithin n s) : FinishesWithin n (takeTurn s) :=
  ⟨h.inv.takeTurn, h.waiting, h.rounds⟩

theorem FinishesWithin.fill (h : FinishesWithin n s) (hp : s.fillPend = true) :
    FinishesWithin n (endFill (fillBody s.fillHalf s.frqN.toNat s)) where
  inv := h.inv.fill hp s.fillHalf (h.inv.request_full hp).le
  waiting := by rw [fillBody_eq]; exact h.waiting
  rounds := by
    by_cases hs : s.state = .finished
    · rw [fillBody_of_idle_or_finished _ (.inr hs)]
      exact .inl hs
    · exact .inr ((roundsLeft_fill_le h.inv hp hs).trans (h.rounds.resolve_left hs))

theorem FinishesWithin.emitHalfWord (h : FinishesWithin (n + 1) s) (hp : s.fillPend = false)
    (hstream : s.tph = .streaming) : FinishesWithin n (emitHalfWord s) where
  inv := h.inv.emitHalfWord hstream
  waiting := (emitHalfWord_hostPh s).trans h.waiting
  rounds := h.rounds.imp (emitHalfWord_state s).trans fun hr =>
    Nat.lt_succ_iff.1 ((roundsLeft_emitHalfWord_lt h.inv hp).trans_le hr)

/-- In a session a transmitter without a pending request streams (R40 items 3 and 4). -/
theorem FinishesWithin.streaming_of_served (h : FinishesWithin n s) (hp : s.fillPend = false) :
    s.tph = .streaming := by
  obtain ⟨-, -, -, hlive⟩ := h.inv.session_live (h.inv.wait_session h.waiting)
  cases ht : s.tph with
  | stopped => exact absurd ht hlive
  | priming =>
    obtain ⟨hpending, -⟩ := h.inv.priming_fresh ht
    exact nomatch hp.symm.trans hpending
  | streaming => rfl

/-- The fill engine's turn of a round leaves no request pending. -/
theorem FinishesWithin.step_fillEngine (h : FinishesWithin n s) (hturn : nextTurn s = .fillEngine) :
    ∃ t, step s = .next t ∧ FinishesWithin n t ∧ t.fillPend = false ∧ t.sched = s.sched.tail ∧
      t.calls = s.calls := by
  cases hp : s.fillPend with
  | true =>
    have hle : s.frqN.toNat ≤ s.blockWords := (h.inv.request_full hp).le
    have hserve := (step_serves hturn hp).trans (exec_fill_of_le (s := Machine.takeTurn s) hle)
    refine ⟨_, hserve, h.takeTurn.fill hp, rfl, ?_⟩
    rw [fillBody_eq]
    exact ⟨rfl, rfl⟩
  | false =>
    have hhold : enabled (nextTurn s) s = false := hturn ▸ hp
    exact ⟨Machine.takeTurn s, step_of_not_enabled hhold, h.takeTurn, hp, rfl, rfl⟩

/-- The transmitter's turn of a round, after the fill engine's: the EMIT is not late. -/
theorem FinishesWithin.step_transmitter (h : FinishesWithin (n + 1) s) (hturn : nextTurn s = .transmitter)
    (hp : s.fillPend = false) :
    ∃ t, step s = .next t ∧ FinishesWithin n t ∧ t.sched = s.sched.tail ∧ t.calls = s.calls := by
  have hstream := h.streaming_of_served hp
  have hemit := emit_of_no_underrun (s := Machine.takeTurn s) (fun _ => hp) h.inv.index_in_half
  exact ⟨_, (step_emits hturn hstream).trans hemit, h.takeTurn.emitHalfWord hp hstream, emitHalfWord_sched _,
    emitHalfWord_calls _⟩

/-- The rounds finish the session, and the host's turn after them completes the PLAY. -/
theorem FinishesWithin.run_drainTurns {rest : List Turn} (h : FinishesWithin n s)
    (hsched : s.sched = drainTurns n ++ rest) :
    ∃ t, Host.Core.run Sys2Proof.core (drainTurns n).length s = .next t ∧
      t.hostPh = .ready ∧ t.state = .idle ∧ t.ampEn = false ∧ t.sched = rest ∧ t.calls = s.calls := by
  induction n generalizing s with
  | zero =>
    have hturn : nextTurn s = .host := by simp [nextTurn, hsched, drainTurns]
    have hstep := step_completes hturn h.waiting h.finished
    have hrest : s.sched.tail = rest := by rw [hsched]; rfl
    exact ⟨_, run_succ_of_step (M := Sys2Proof.core) hstep 0, rfl, rfl, rfl, hrest, rfl⟩
  | succ n ih =>
    have hturn : nextTurn s = .fillEngine := by simp [nextTurn, hsched, drainTurns]
    obtain ⟨u, hfill, hu, hp, husched, hucalls⟩ := h.step_fillEngine hturn
    replace husched : u.sched = .transmitter :: (drainTurns n ++ rest) := by rw [husched, hsched]; rfl
    have huturn : nextTurn u = .transmitter := by simp [nextTurn, husched]
    obtain ⟨v, hemit, hv, hvsched, hvcalls⟩ := hu.step_transmitter huturn hp
    obtain ⟨t, hrun, hready, hidle, hamp, htsched, htcalls⟩ := ih hv (by rw [hvsched, husched]; rfl)
    refine ⟨t, ?_, hready, hidle, hamp, htsched, htcalls.trans (hvcalls.trans hucalls)⟩
    exact (run_succ_of_step (M := Sys2Proof.core) hfill _).trans
      ((run_succ_of_step (M := Sys2Proof.core) hemit _).trans hrun)

end

/-! ### The obligations -/

/-- Settles O32: without a step the turn is taken, and its taker does nothing. -/
theorem stepHoldsWhenNotEnabled : Obligations.StepHoldsWhenNotEnabled :=
  fun _ h => step_of_not_enabled h

/-- Settles O35: of a halted block's agents none has a step. -/
theorem haltedBlockIsStuck : Obligations.HaltedBlockIsStuck := by
  intro s given rest hhalted hready hstop hp hgiven hsched
  refine run_of_not_enabled hsched fun w hw => ?_
  cases w with
  | host => simp [enabled, cmdReady, hhalted, hready]
  | fillEngine => exact hp
  | transmitter => simp [enabled, hstop]
  | reset => exact absurd hw hgiven

/-- Settles O39: of the takers of a turn only the transmitter can fault, at the edge that R119 names. -/
theorem onlyUnderrunFaults : Obligations.OnlyUnderrunFaults :=
  fun s _ h hstep => h.takeTurn.runTurn_fault (u := takeTurn s) hstep

/-- Settles O40: the block's own requests are never too large, so only the port refuses. -/
theorem onlyCommandsRefused : Obligations.OnlyCommandsRefused :=
  fun s _ h hstep => h.takeTurn.runTurn_refused (u := takeTurn s) hstep

/-- Settles O44, agent by agent: the turn's bookkeeping changes the schedule alone. -/
theorem agentsWriteTheirOwn : Obligations.AgentsWriteTheirOwn := by
  intro s t hstep
  refine ⟨fun hturn => ?_, fun hturn => ?_, fun hturn => ?_⟩ <;> rw [step, hturn] at hstep
  · rcases runTurn_host_writes hstep with ⟨hframe, htph, hpend, hstate⟩ | ⟨c, rest, addr, len, hcalls, hd, rfl⟩
    · rw [hframe]
      exact ⟨rfl, .inl ⟨rfl, rfl, rfl, rfl, rfl, rfl, rfl, rfl, htph, hpend, hstate⟩⟩
    · exact ⟨rfl, .inr ⟨c, rest, hcalls, hd, rfl, rfl, rfl, rfl, rfl, rfl, rfl, rfl, rfl, rfl⟩⟩
  · obtain ⟨hframe, hwrites⟩ := runTurn_fillEngine_writes hstep
    exact ⟨by rw [hframe]; rfl, hwrites⟩
  · obtain ⟨hframe, hwrites⟩ := runTurn_transmitter_writes hstep
    exact ⟨by rw [hframe]; rfl, hwrites⟩

/-- Settles O48: as many rounds as the state can still need, and then the host's turn. -/
theorem sessionCanAlwaysEnd : Obligations.SessionCanAlwaysEnd := by
  intro s hinv hwait
  have h : FinishesWithin (roundsLeft s) { s with sched := drainTurns (roundsLeft s) ++ s.sched } :=
    ⟨{ hinv with }, hwait, .inr le_rfl⟩
  obtain ⟨t, hrun, hend⟩ := h.run_drainTurns rfl
  exact ⟨drainTurns (roundsLeft s), t, reset_not_mem_drainTurns _, hrun, hend⟩

end Sys2Proof.Machine
end

section
/-! Reset and hazards (70_reset_and_hazards.md): the reset input, what an accepted call leaves in source memory, the end
of a run, and the words a session sends. -/

namespace Sys2Proof.Machine

/-! ### The reset input (R157) -/

/-- At the reset input's turn a block outside a session is reset. -/
theorem step_resets {s : State} (hturn : nextTurn s = .reset) (hready : s.hostPh = .ready) :
    step s = .next (applyReset (takeTurn s)) := by
  simp [step, hturn, runTurn, resetTurn, hready]

/-! ### The stores of an accepted call (R161) -/

/-- A call that the port answers with a state is one it decoded and ran. -/
theorem acceptCall_next {c : HostCall} {rest : List HostCall} {s t : State} (h : acceptCall c rest s = .next t) :
    ∃ i, decodeCmd s.cfg.addrW c.desc = .instr i ∧ exec i (latchCall c rest s) = .next t := by
  cases hd : decodeCmd s.cfg.addrW c.desc with
  | instr i => exact ⟨i, rfl, (acceptCall_instr rest hd).symm.trans h⟩
  | reservedEncoding => exact nomatch (acceptCall_reserved rest hd).symm.trans h

/-- The command leaves source memory as the latched call has it. -/
theorem acceptCall_srcMem {c : HostCall} {rest : List HostCall} {s t : State} (h : acceptCall c rest s = .next t) :
    t.srcMem = storeCells s.cfg s.srcMem c.stores := by
  obtain ⟨i, hd, hexec⟩ := acceptCall_next h
  exact exec_command_srcMem (decodeCmd_ne_fill hd) hexec

/-! ### Whether the block is at rest (R174) -/

theorem cmdReady_iff (s : State) : cmdReady s = true ↔ s.hostPh = .ready ∧ s.halted = false := by
  simp [cmdReady]

theorem enabled_transmitter_iff (s : State) : enabled .transmitter s = true ↔ s.tph = .streaming := by
  simp [enabled]

/-- A waiting host has a session, so one of the block's two agents has a step: the transmitter streams, or the
request that it waits for is pending (R40 items 3 and 4). -/
theorem BlockInv.fillPend_or_streaming {s : State} (h : BlockInv s) (hwait : s.hostPh = .wait) :
    s.fillPend = true ∨ s.tph = .streaming := by
  have hsession : FinishesWithin (roundsLeft s) s := ⟨h, hwait, .inr le_rfl⟩
  cases hp : s.fillPend with
  | true => exact .inl rfl
  | false => exact .inr (hsession.streaming_of_served hp)

/-! ### The count of half-words sent (42_transmitter.md R121) -/

/-- What has left in a session says how far it is. -/
theorem SessionAt.out_length {before : List HalfWord} {m f : Nat} {s : State} (h : SessionAt before m f s) :
    s.out.length = before.length + m := by
  simp [h.sent]

/-! ### The obligations -/

/-- Settles O54: `OUT` counts the session's half-words, and an EMIT that answers is not late, so its word has been
filled. -/
theorem staleWordsNeverSent : Obligations.StaleWordsNeverSent := by
  rintro before m s t - ⟨m', f, h⟩ hlen hstream hemit
  obtain rfl : m' = m := Nat.add_left_cancel (h.out_length.symm.trans hlen)
  obtain ⟨hlate, hidx, rfl⟩ := emit_next hemit
  refine ⟨h.cellRead_positionWord hidx hstream hlate, ?_⟩
  rw [emitHalfWord_out, h.positionHalfWord_eq hidx hstream hlate]

/-- Settles O56: the accepted call's stores are made once, and the last one to an address stays. -/
theorem acceptedStoresAreInMemory : Obligations.AcceptedStoresAreInMemory := by
  intro s t c rest hturn hready hlive hcalls hstep a _
  have haccept : acceptCall c rest (takeTurn s) = .next t :=
    (step_accepts hturn hready hlive hcalls).symm.trans hstep
  have hmem : t.srcMem = storeCells s.cfg s.srcMem c.stores := acceptCall_srcMem (s := takeTurn s) haccept
  rw [hmem, cellRead_storeCells]

/-- Settles O33: the turn answers the reset state, with the model's own fields kept. -/
theorem resetInputRestoresTable : Obligations.ResetInputRestoresTable :=
  fun _ hturn hready =>
    ⟨_, step_resets hturn hready, rfl, rfl, rfl, rfl, rfl, rfl, rfl, rfl, rfl, rfl, rfl, rfl, rfl, rfl, fun _ => rfl,
      rfl, rfl, rfl⟩

/-- Settles O46: the port's two bits are the signal, and a ready port has no session (R40 item 2). -/
theorem readyPortEndsRun : Obligations.ReadyPortEndsRun := by
  intro s hinv hcalls hport
  obtain ⟨hready, hlive⟩ := (cmdReady_iff s).1 hport
  obtain ⟨hidle, hstopped, hserved⟩ := hinv.ready_quiet hready
  exact ⟨hcalls, hready, hlive, hidle, hstopped, hserved⟩

/-- Settles O47: the fill engine or the transmitter has a step. -/
theorem noDeadlock : Obligations.NoDeadlock := by
  rintro s hinv ⟨hwait, -, hfill, htransmitter⟩
  rcases hinv.fillPend_or_streaming hwait with hp | hstream
  · exact Bool.false_ne_true (hfill.symm.trans hp)
  · exact Bool.false_ne_true (htransmitter.symm.trans ((enabled_transmitter_iff s).2 hstream))

end Sys2Proof.Machine
end
